-- ==== Sys2Proof/Word.lean ====
section
/-! DEFINITION. The byte, and the names that the two 2-bit fields of an instruction byte can hold. -/

namespace Sys2Proof

/-- Every architected value is 8 bits wide: register, `PC`, memory cell, port (`00_scope.md` R5, R8).
`+` and `-` on it are the spec's `+8` and `-8`. -/
abbrev Byte := BitVec 8

/-- The general registers (`10_state.md` R20), which the `GR` field names (`30_encoding.md` R92). -/
inductive Reg
  /-- `G0`, code `00` -/
  | g0
  /-- `G1`, code `01`, also an index register (R22) -/
  | g1
  /-- `G2`, code `10`, also an index register (R22) -/
  | g2
  /-- `SP`, code `11`, also the stack pointer (R23) -/
  | sp
  deriving DecidableEq, Repr

/-- The values of the `XR` field where it is an addressing mode (`30_encoding.md` R93). -/
inductive XR
  /-- `00`: the operand byte is the address -/
  | direct
  /-- `01`: the operand byte plus `G1` is the address -/
  | g1
  /-- `10`: the operand byte plus `G2` is the address -/
  | g2
  /-- `11`: the operand byte is the operand itself -/
  | imm
  deriving DecidableEq, Repr

end Sys2Proof
end

