-- ==== Sys2Proof/Syntax.lean ====
section
/-! DEFINITION. The instructions: one constructor per row of `spec/opcode_table.json`. -/

namespace Sys2Proof

/-- The thirty instructions (`30_encoding.md` R95). `gr` is the register of the `GR` field, `xr` the
addressing mode of the `XR` field, `d` the operand byte (R94), `port` the operand byte of `IN` and
`OUT`. Which `XR` an instruction admits is `Instr.WellFormed`. -/
inductive Instr
  /-- `NO` -/
  | no
  /-- `LD GR, src` -/
  | ld (gr : Reg) (xr : XR) (d : Byte)
  /-- `ST GR, dst` -/
  | st (gr : Reg) (xr : XR) (d : Byte)
  /-- `ADD GR, src` -/
  | add (gr : Reg) (xr : XR) (d : Byte)
  /-- `SUB GR, src` -/
  | sub (gr : Reg) (xr : XR) (d : Byte)
  /-- `CMP GR, src` -/
  | cmp (gr : Reg) (xr : XR) (d : Byte)
  /-- `AND GR, src` -/
  | and (gr : Reg) (xr : XR) (d : Byte)
  /-- `OR GR, src` -/
  | or (gr : Reg) (xr : XR) (d : Byte)
  /-- `XOR GR, src` -/
  | xor (gr : Reg) (xr : XR) (d : Byte)
  /-- `SHLA GR` -/
  | shla (gr : Reg)
  /-- `SHLL GR` -/
  | shll (gr : Reg)
  /-- `SHRA GR` -/
  | shra (gr : Reg)
  /-- `SHRL GR` -/
  | shrl (gr : Reg)
  /-- `JMP addr` -/
  | jmp (xr : XR) (d : Byte)
  /-- `JZ addr` -/
  | jz (xr : XR) (d : Byte)
  /-- `JC addr` -/
  | jc (xr : XR) (d : Byte)
  /-- `JM addr` -/
  | jm (xr : XR) (d : Byte)
  /-- `CALL addr` -/
  | call (xr : XR) (d : Byte)
  /-- `JNZ addr` -/
  | jnz (xr : XR) (d : Byte)
  /-- `JNC addr` -/
  | jnc (xr : XR) (d : Byte)
  /-- `JNM addr` -/
  | jnm (xr : XR) (d : Byte)
  /-- `IN GR, port` -/
  | inp (gr : Reg) (port : Byte)
  /-- `OUT GR, port` -/
  | out (gr : Reg) (port : Byte)
  /-- `PUSH GR` -/
  | push (gr : Reg)
  /-- `POP GR` -/
  | pop (gr : Reg)
  /-- `EI` -/
  | ei
  /-- `DI` -/
  | di
  /-- `RET` -/
  | ret
  /-- `RETI` -/
  | reti
  /-- `HALT` -/
  | halt
  deriving DecidableEq, Repr

end Sys2Proof
end

