-- ==== Sys2Proof/WellFormed.lean ====
section
/-! DEFINITION. Which instruction terms are instructions of the machine. -/

namespace Sys2Proof

/-- The address of `ST`, of the jumps and of `CALL` is direct or indexed, never immediate
(`30_encoding.md` R93, R97). -/
def XR.isAddress : XR → Bool
  | .direct => true
  | .g1 => true
  | .g2 => true
  | .imm => false

/-- The check on a term: the one thing the syntax admits and R95 does not is `XR` = `11` on `ST`,
the jumps and `CALL`. Every operand byte is legal as an encoding: a port number above `0x0F` is an
error at execute, not an illegal encoding (R98). -/
def Instr.wf : Instr → Bool
  | .no => true
  | .ld _ _ _ => true
  | .st _ xr _ => xr.isAddress
  | .add _ _ _ => true
  | .sub _ _ _ => true
  | .cmp _ _ _ => true
  | .and _ _ _ => true
  | .or _ _ _ => true
  | .xor _ _ _ => true
  | .shla _ => true
  | .shll _ => true
  | .shra _ => true
  | .shrl _ => true
  | .jmp xr _ => xr.isAddress
  | .jz xr _ => xr.isAddress
  | .jc xr _ => xr.isAddress
  | .jm xr _ => xr.isAddress
  | .call xr _ => xr.isAddress
  | .jnz xr _ => xr.isAddress
  | .jnc xr _ => xr.isAddress
  | .jnm xr _ => xr.isAddress
  | .inp _ _ => true
  | .out _ _ => true
  | .push _ => true
  | .pop _ => true
  | .ei => true
  | .di => true
  | .ret => true
  | .reti => true
  | .halt => true

/-- The well-formed instructions. -/
abbrev Instr.WellFormed (i : Instr) : Prop := i.wf = true

end Sys2Proof
end

