-- ==== Sys2Proof/Decode.lean ====
section
/-! DEFINITION. The decoder, total on any bytes, the encoder, and the host's entry to the decoder. -/

namespace Sys2Proof

/-- Why bytes are no instruction. The first eight are the lines of `30_encoding.md` R97 (the four
values each of `A3 A7 AB AF` and `B3 B7 BB BF` under one name each). -/
inductive DecodeError
  /-- `01..0F`: opcode `0` with `GR` or `XR` not `00` -/
  | illegalNo
  /-- `23 27 2B 2F`: `ST` to an immediate -/
  | illegalStore
  /-- `A3 A7 AB AF`: `JMP`, `JZ`, `JC`, `JM` to an immediate -/
  | illegalJump
  /-- `B3 B7 BB BF`: `CALL`, `JNZ`, `JNC`, `JNM` to an immediate -/
  | illegalCall
  /-- opcode `C` with `XR` = `01` or `10` -/
  | illegalPort
  /-- opcode `D` with `XR` = `01` or `11` -/
  | illegalStack
  /-- opcode `E` other than `E0`, `E3`, `EC`, `EF` -/
  | illegalSystem
  /-- `F0..FE` -/
  | illegalHalt
  /-- the list of bytes is empty, or ends before the operand byte: never so in memory -/
  | truncated
  deriving DecidableEq, Repr

/-- The `op` field, bits 7 to 4 (R91). -/
def opField (b : Byte) : BitVec 4 := b.extractLsb' 4 4

/-- The `GR` field, bits 3 to 2 (R91). -/
def grField (b : Byte) : BitVec 2 := b.extractLsb' 2 2

/-- The `XR` field, bits 1 to 0 (R91). -/
def xrField (b : Byte) : BitVec 2 := b.extractLsb' 0 2

/-- The register a `GR` field names (R92). -/
def Reg.ofField (f : BitVec 2) : Reg :=
  match f.toNat with
  | 0 => .g0
  | 1 => .g1
  | 2 => .g2
  | _ => .sp

/-- The `GR` field of a register (R92). -/
def Reg.field : Reg → BitVec 2
  | .g0 => 0b00#2
  | .g1 => 0b01#2
  | .g2 => 0b10#2
  | .sp => 0b11#2

/-- The addressing mode an `XR` field names (R93). -/
def XR.ofField (f : BitVec 2) : XR :=
  match f.toNat with
  | 0 => .direct
  | 1 => .g1
  | 2 => .g2
  | _ => .imm

/-- The `XR` field of an addressing mode (R93). -/
def XR.field : XR → BitVec 2
  | .direct => 0b00#2
  | .g1 => 0b01#2
  | .g2 => 0b10#2
  | .imm => 0b11#2

/-- A one-byte instruction (format `B1`, R91). -/
def decodeOne (i : Instr) (rest : List Byte) : Except DecodeError (Instr × List Byte) :=
  .ok (i, rest)

/-- A two-byte instruction (format `B2`, R91): `f` takes the operand byte. -/
def decodeTwo (f : Byte → Instr) : List Byte → Except DecodeError (Instr × List Byte)
  | [] => .error .truncated
  | d :: rest => .ok (f d, rest)

/-- A two-byte instruction whose operand is an address: `XR` = `11` is illegal (R97), under the name
`e`; the test comes before the operand byte is looked at (`40_execution_cycle.md` R132). -/
def decodeAddress (e : DecodeError) (xr : XR) (f : Byte → Instr) (rest : List Byte) :
    Except DecodeError (Instr × List Byte) :=
  if xr.isAddress then decodeTwo f rest else .error e

/-- `Decode` (`40_execution_cycle.md` R132) by the table of `30_encoding.md` R95: the instruction at
the head of the bytes and the bytes after it. -/
def decode : List Byte → Except DecodeError (Instr × List Byte)
  | [] => .error .truncated
  | b :: rest =>
    let gr := Reg.ofField (grField b)
    let xr := XR.ofField (xrField b)
    match (opField b).toNat, (grField b).toNat, (xrField b).toNat with
    | 0x0, 0, 0 => decodeOne .no rest
    | 0x0, _, _ => .error .illegalNo
    | 0x1, _, _ => decodeTwo (.ld gr xr) rest
    | 0x2, _, _ => decodeAddress .illegalStore xr (.st gr xr) rest
    | 0x3, _, _ => decodeTwo (.add gr xr) rest
    | 0x4, _, _ => decodeTwo (.sub gr xr) rest
    | 0x5, _, _ => decodeTwo (.cmp gr xr) rest
    | 0x6, _, _ => decodeTwo (.and gr xr) rest
    | 0x7, _, _ => decodeTwo (.or gr xr) rest
    | 0x8, _, _ => decodeTwo (.xor gr xr) rest
    | 0x9, _, 0 => decodeOne (.shla gr) rest
    | 0x9, _, 1 => decodeOne (.shll gr) rest
    | 0x9, _, 2 => decodeOne (.shra gr) rest
    | 0x9, _, _ => decodeOne (.shrl gr) rest
    | 0xA, 0, _ => decodeAddress .illegalJump xr (.jmp xr) rest
    | 0xA, 1, _ => decodeAddress .illegalJump xr (.jz xr) rest
    | 0xA, 2, _ => decodeAddress .illegalJump xr (.jc xr) rest
    | 0xA, _, _ => decodeAddress .illegalJump xr (.jm xr) rest
    | 0xB, 0, _ => decodeAddress .illegalCall xr (.call xr) rest
    | 0xB, 1, _ => decodeAddress .illegalCall xr (.jnz xr) rest
    | 0xB, 2, _ => decodeAddress .illegalCall xr (.jnc xr) rest
    | 0xB, _, _ => decodeAddress .illegalCall xr (.jnm xr) rest
    | 0xC, _, 0 => decodeTwo (.inp gr) rest
    | 0xC, _, 3 => decodeTwo (.out gr) rest
    | 0xC, _, _ => .error .illegalPort
    | 0xD, _, 0 => decodeOne (.push gr) rest
    | 0xD, _, 2 => decodeOne (.pop gr) rest
    | 0xD, _, _ => .error .illegalStack
    | 0xE, 0, 0 => decodeOne .ei rest
    | 0xE, 0, 3 => decodeOne .di rest
    | 0xE, 3, 0 => decodeOne .ret rest
    | 0xE, 3, 3 => decodeOne .reti rest
    | 0xE, _, _ => .error .illegalSystem
    | _, 3, 3 => decodeOne .halt rest
    | _, _, _ => .error .illegalHalt

/-- The length in bytes, decided by the opcode alone (R99; decision D1, log entry 17). -/
def Instr.size : Instr → Nat
  | .no => 1
  | .ld _ _ _ => 2
  | .st _ _ _ => 2
  | .add _ _ _ => 2
  | .sub _ _ _ => 2
  | .cmp _ _ _ => 2
  | .and _ _ _ => 2
  | .or _ _ _ => 2
  | .xor _ _ _ => 2
  | .shla _ => 1
  | .shll _ => 1
  | .shra _ => 1
  | .shrl _ => 1
  | .jmp _ _ => 2
  | .jz _ _ => 2
  | .jc _ _ => 2
  | .jm _ _ => 2
  | .call _ _ => 2
  | .jnz _ _ => 2
  | .jnc _ _ => 2
  | .jnm _ _ => 2
  | .inp _ _ => 2
  | .out _ _ => 2
  | .push _ => 1
  | .pop _ => 1
  | .ei => 1
  | .di => 1
  | .ret => 1
  | .reti => 1
  | .halt => 1

/-- The instruction byte `op GR XR` (R91). -/
def instByte (op : BitVec 4) (gr xr : BitVec 2) : Byte := op ++ gr ++ xr

/-- The bytes of an instruction, the instruction byte first (R95; `20_memory.md` R68). -/
def encode : Instr → List Byte
  | .no => [instByte 0x0#4 0b00#2 0b00#2]
  | .ld gr xr d => [instByte 0x1#4 gr.field xr.field, d]
  | .st gr xr d => [instByte 0x2#4 gr.field xr.field, d]
  | .add gr xr d => [instByte 0x3#4 gr.field xr.field, d]
  | .sub gr xr d => [instByte 0x4#4 gr.field xr.field, d]
  | .cmp gr xr d => [instByte 0x5#4 gr.field xr.field, d]
  | .and gr xr d => [instByte 0x6#4 gr.field xr.field, d]
  | .or gr xr d => [instByte 0x7#4 gr.field xr.field, d]
  | .xor gr xr d => [instByte 0x8#4 gr.field xr.field, d]
  | .shla gr => [instByte 0x9#4 gr.field 0b00#2]
  | .shll gr => [instByte 0x9#4 gr.field 0b01#2]
  | .shra gr => [instByte 0x9#4 gr.field 0b10#2]
  | .shrl gr => [instByte 0x9#4 gr.field 0b11#2]
  | .jmp xr d => [instByte 0xA#4 0b00#2 xr.field, d]
  | .jz xr d => [instByte 0xA#4 0b01#2 xr.field, d]
  | .jc xr d => [instByte 0xA#4 0b10#2 xr.field, d]
  | .jm xr d => [instByte 0xA#4 0b11#2 xr.field, d]
  | .call xr d => [instByte 0xB#4 0b00#2 xr.field, d]
  | .jnz xr d => [instByte 0xB#4 0b01#2 xr.field, d]
  | .jnc xr d => [instByte 0xB#4 0b10#2 xr.field, d]
  | .jnm xr d => [instByte 0xB#4 0b11#2 xr.field, d]
  | .inp gr p => [instByte 0xC#4 gr.field 0b00#2, p]
  | .out gr p => [instByte 0xC#4 gr.field 0b11#2, p]
  | .push gr => [instByte 0xD#4 gr.field 0b00#2]
  | .pop gr => [instByte 0xD#4 gr.field 0b10#2]
  | .ei => [instByte 0xE#4 0b00#2 0b00#2]
  | .di => [instByte 0xE#4 0b00#2 0b11#2]
  | .ret => [instByte 0xE#4 0b11#2 0b00#2]
  | .reti => [instByte 0xE#4 0b11#2 0b11#2]
  | .halt => [instByte 0xF#4 0b11#2 0b11#2]

/-- Byte `k` of a number whose bit 0 is the least significant bit of the first byte, as
`spec/opcode_table.json` numbers the bits; bits from `nbits` up read as 0. -/
def tableByte (nbits w k : Nat) : Byte := BitVec.ofNat 8 (w % 2 ^ nbits / 2 ^ (8 * k))

/-- The bytes of a table row's instruction as memory holds them: two, the longest length (R90). -/
def tableBytes (nbits w : Nat) : List Byte := [tableByte nbits w 0, tableByte nbits w 1]

/-- The instruction the decoder reads from a table row's bits; none where it refuses. -/
def decodeTableWord (nbits w : Nat) : Option Instr :=
  match decode (tableBytes nbits w) with
  | .ok (i, _) => some i
  | .error _ => none

end Sys2Proof
end

