-- ==== Sys2Proof/Config.lean ====
section
/-! DEFINITION. The parameters of `00_scope.md` R5 and R6, and the one free value of the machine. -/

namespace Sys2Proof

/-- `ROM_START`, the first address of the write-protected region (R5; `20_memory.md` R61). -/
def Config.romStart : Byte := 0xE0#8

/-- `VEC_TIMER` (R5; `20_memory.md` R67). -/
def Config.vecTimer : Byte := 0xDC#8

/-- `VEC_RX` (R5; `20_memory.md` R67). -/
def Config.vecRx : Byte := 0xDD#8

/-- `VEC_TX` (R5; `20_memory.md` R67). -/
def Config.vecTx : Byte := 0xDE#8

/-- `VEC_CONSOLE` (R5; `20_memory.md` R67). -/
def Config.vecConsole : Byte := 0xDF#8

/-- `N_PORTS`, the number of ports of either port space (R5). -/
def Config.nPorts : Nat := 16

/-- `STATES_PER_SEC` (R5). -/
def Config.statesPerSec : Nat := 2457600

/-- `TIMER_TICK_STATES`, `STATES_PER_SEC / 75` (R5; `60_exceptions.md` R330). -/
def Config.timerTickStates : Nat := 32768

/-- `SERIAL_UNIT_STATES`, the host's quantum (R5; `90_conflicts.md` C7). -/
def Config.serialUnitStates : Nat := 32

/-- `RESET_PC` (R6). DESIGN CHOICE: decision D16, unsafe (log entry 4). -/
def Config.resetPc : Byte := 0x00#8

/-- `RESET_REG` (R6). DESIGN CHOICE: decision D16, unsafe (log entry 4). -/
def Config.resetReg : Byte := 0x00#8

/-- `RESET_RAM` (R6). DESIGN CHOICE: decision D18, unsafe (log entry 7). -/
def Config.resetRam : Byte := 0x00#8

/-- The free value: `PC` after a step that sets the error flag is unspecified
(`40_execution_cycle.md` R135, `93_implementation_defined.md` U1). It is applied to a counter of the
state, so that each error has a value of its own. No body: nothing can be proved of it. Safe (log
entry 1). -/
opaque Config.errorPc : Nat → Byte

end Sys2Proof
end

