-- ==== Sys2Proof/Machine/State.lean ====
section
/-! DEFINITION. The machine's state as plain data, the host's events, the reasons a step can stop,
and the state after reset. -/

namespace Sys2Proof.Machine

/-- The memory `M` (`20_memory.md` R60): the cells that differ from the boot contents, by rising
address. What an unlisted address reads as is `Machine.resetByte`. -/
abbrev Memory := List Host.Cell

/-- The timer (`10_state.md` R37). -/
structure Timer where
  /-- `tmr_period` -/
  period : Byte
  /-- `tmr_counter` -/
  counter : Byte
  /-- `tmr_enable` -/
  enable : Bool
  /-- `tmr_elapsed` -/
  elapsed : Bool
  /-- `tmr_ie` -/
  ie : Bool
  /-- `tmr_acc`, in states -/
  acc : Nat
  /-- `tmr_pending` -/
  pending : Bool
  deriving DecidableEq, Repr

/-- The serial unit (`10_state.md` R38). -/
structure Sio where
  /-- `rx_data` -/
  rxData : Byte
  /-- `rx_full` -/
  rxFull : Bool
  /-- `tx_data` -/
  txData : Byte
  /-- `tx_empty` -/
  txEmpty : Bool
  /-- `tx_ie` -/
  txIe : Bool
  /-- `rx_ie` -/
  rxIe : Bool
  deriving DecidableEq, Repr

/-- The console interrupt (`10_state.md` R39). -/
structure Console where
  /-- `con_ie` -/
  ie : Bool
  /-- `con_pending` -/
  pending : Bool
  deriving DecidableEq, Repr

/-- The other peripherals (`10_state.md` R40). -/
structure Pio where
  /-- `data_sw` -/
  dataSw : Byte
  /-- `par_in` -/
  parIn : Byte
  /-- `par_out` -/
  parOut : Byte
  /-- `ext_out` -/
  extOut : BitVec 4
  /-- `ext_enable` -/
  extEnable : Bool
  /-- `adc[0]` -/
  adc0 : Byte
  /-- `adc[1]` -/
  adc1 : Byte
  /-- `adc[2]` -/
  adc2 : Byte
  /-- `adc[3]` -/
  adc3 : Byte
  /-- `buzzer` -/
  buzzer : Bool
  /-- `speaker` -/
  speaker : Bool
  deriving DecidableEq, Repr

/-- The four ADC channels (`10_state.md` R40). -/
inductive AdcChannel
  | ch0
  | ch1
  | ch2
  | ch3
  deriving DecidableEq, Repr

/-- What a set-register or print-register event names (`70_reset_and_hazards.md` R421, R440). -/
inductive HostReg
  /-- one of `G0`, `G1`, `G2`, `SP` -/
  | gen (r : Reg)
  /-- `PC` -/
  | pc
  deriving DecidableEq, Repr

/-- What a set-flag or print-flag event names (R422, R440): the host has no event for `IE`. -/
inductive HostFlag
  | c
  | s
  | z
  deriving DecidableEq, Repr

/-- What a print event samples (R440). -/
inductive PrintWhat
  /-- `$PRINT [expr]` -/
  | mem (addr : Int)
  /-- `$PRINT G0|G1|G2|SP|PC` -/
  | reg (r : HostReg)
  /-- `$PRINT C|S|Z` -/
  | flag (f : HostFlag)
  /-- `$PRINT BUZ` -/
  | buzzer
  /-- `$PRINT SPK` -/
  | speaker
  /-- `$PRINT RUN` -/
  | run
  /-- `$PRINT PARALLEL` -/
  | parallel
  /-- `$PRINT EXT-PARALLEL` -/
  | extParallel
  deriving DecidableEq, Repr

/-- The printer's two category buffers (R441). -/
inductive PrintCategory
  | serial
  | print
  deriving DecidableEq, Repr

/-- The printer's formatting modes (R441). -/
inductive PrintMode
  | raw
  | hex
  | tec
  | sdec
  | udec
  deriving DecidableEq, Repr

/-- One thing the printer was given: a byte of a category, or a category's new mode. The text the
printer makes of them is out of scope (`00_scope.md` R3; log entry 12). -/
inductive PrinterItem
  | byte (c : PrintCategory) (v : Byte)
  | mode (c : PrintCategory) (m : PrintMode)
  deriving DecidableEq, Repr

/-- The host's events (`70_reset_and_hazards.md` R420). An `Int` is the value of a script expression,
of which the event takes the low 8 bits (R421, `30_encoding.md` R111). -/
inductive Event
  /-- set register (R421) -/
  | setReg (r : HostReg) (v : Int)
  /-- set flag (R422) -/
  | setFlag (f : HostFlag) (v : Bool)
  /-- set memory (R423) -/
  | setMem (addr v : Int)
  /-- `$DATA-SW` (R424) -/
  | dataSwitch (v : Int)
  /-- `$ANALOG`, with the converted byte (R425) -/
  | analogIn (ch : AdcChannel) (v : Byte)
  /-- `$PARALLEL` (R426) -/
  | parallelIn (v : Int)
  /-- `$WRITE`, the console interrupt request (R427) -/
  | write
  /-- `$RUN` (R428) -/
  | run
  /-- `$STOP` (R428) -/
  | stop
  /-- `$RESET` (R400) -/
  | reset
  /-- `$SERIAL` (R429) -/
  | serialIn (vs : List Int)
  /-- `$WAIT STATES n` (R432) -/
  | waitStates (n : Nat)
  /-- `$WAIT MS n` (R433) -/
  | waitMs (n : Nat)
  /-- `$WAIT SEC n` (R433) -/
  | waitSec (n : Nat)
  /-- `$WAIT SERIAL` (R432) -/
  | waitSerial
  /-- `$WAIT STOP` (R432) -/
  | waitStop
  /-- `$PRINT` (R440) -/
  | print (w : PrintWhat)
  /-- `$SERIAL-MODE`, `$PRINT-MODE` (R441) -/
  | setMode (c : PrintCategory) (m : PrintMode)
  /-- `$END` (R435) -/
  | endScript
  deriving DecidableEq, Repr

/-- The condition of a wait event's loop (R432). -/
inductive WaitKind
  /-- wait-stop -/
  | stop
  /-- wait-serial -/
  | serial
  /-- wait-states `n`, with the states counted so far -/
  | states (n total : Nat)
  deriving DecidableEq, Repr

/-- A wait event in progress: its condition, and the states the quantum has consumed so far, the
`acc` of `Clock` (R430). -/
structure Wait where
  kind : WaitKind
  acc : Nat
  deriving DecidableEq, Repr

/-- The host's own state (`10_state.md` R43): specified, though no machine state (log entry 9). -/
structure Harness where
  /-- the events not yet consumed, in order (R420) -/
  events : List Event
  /-- the wait event in progress, if one is (R432) -/
  wait : Option Wait
  /-- `rx_queue`, the next byte first (R429) -/
  rxQueue : List Byte
  /-- what the printer was given, the latest last (R431, R440) -/
  printer : List PrinterItem
  deriving DecidableEq, Repr

/-- The whole state: the CPU (`10_state.md` R20 to R33), memory (R36), the peripherals (R37 to R40),
the host, and the model's own count of free values. -/
structure State where
  /-- `G0` -/
  g0 : Byte
  /-- `G1` -/
  g1 : Byte
  /-- `G2` -/
  g2 : Byte
  /-- `SP` -/
  sp : Byte
  /-- `PC` -/
  pc : Byte
  /-- `C` -/
  flagC : Bool
  /-- `S` -/
  flagS : Bool
  /-- `Z` -/
  flagZ : Bool
  /-- `IE` -/
  ie : Bool
  /-- the run flag -/
  run : Bool
  /-- the error flag -/
  error : Bool
  /-- `M` -/
  mem : Memory
  timer : Timer
  sio : Sio
  console : Console
  pio : Pio
  harness : Harness
  /-- the MODEL's own: how many free values were taken (log entry 1) -/
  freeCount : Nat
  deriving DecidableEq, Repr

/-- The result of an ALU operation: the 8-bit value, and the flags `C`, `S`, `Z`. -/
structure AluResult where
  value : Byte
  c : Bool
  s : Bool
  z : Bool
  deriving DecidableEq, Repr

/-- Why the machine stops with a fault. -/
inductive Fault
  /-- Raised by `step` from a state whose error flag is 1: no step is defined from it
  (`10_state.md` R33, `60_exceptions.md` R301, `93_implementation_defined.md` U4). Safe: the machine
  executes nothing there. -/
  | errorState
  deriving DecidableEq, Repr

/-- Why a step has no meaning. -/
inductive Refusal
  /-- Raised by an arm of `exec` for an instruction without a meaning: here, by none. Safe. -/
  | notModelled (mnemonic : String)
  /-- Raised by the host's write event while `run` is 0: an error of the script that aborts it, not
  a machine state (`70_reset_and_hazards.md` R427, `93_implementation_defined.md` U23). Safe. -/
  | writeWhileStopped
  deriving DecidableEq, Repr

/-- What every step, meaning and host action answers. -/
abbrev Outcome := Host.Outcome State Fault Refusal

/-- The timer after reset (`10_state.md` R45; decision D17, log entry 6). -/
def Timer.reset : Timer :=
  { period := 0#8, counter := 0#8, enable := false, elapsed := false, ie := false, acc := 0,
    pending := false }

/-- The SIO after reset: all 0 but `tx_empty` (R41, R45; decision D17, log entry 6). -/
def Sio.reset : Sio :=
  { rxData := 0#8, rxFull := false, txData := 0#8, txEmpty := true, txIe := false, rxIe := false }

/-- The console interrupt after reset (R45; decision D17, log entry 6). -/
def Console.reset : Console := { ie := false, pending := false }

/-- The other peripherals after reset (R45; decision D17, log entry 6). -/
def Pio.reset : Pio :=
  { dataSw := 0#8, parIn := 0#8, parOut := 0#8, extOut := 0#4, extEnable := false,
    adc0 := 0#8, adc1 := 0#8, adc2 := 0#8, adc3 := 0#8, buzzer := false, speaker := false }

/-- The host at boot, before a script is given (`70_reset_and_hazards.md` R401). -/
def Harness.boot : Harness := { events := [], wait := none, rxQueue := [], printer := [] }

/-- The machine at boot, no image loaded: `10_state.md` R45, `70_reset_and_hazards.md` R400, R401.
Every value but the ROM's is a decision of the spec (D16, D17, D18; log entries 4 to 7). -/
def State.reset : State :=
  { g0 := Config.resetReg, g1 := Config.resetReg, g2 := Config.resetReg, sp := Config.resetReg,
    pc := Config.resetPc, flagC := false, flagS := false, flagZ := false,
    ie := false, run := false, error := false,
    mem := [],
    timer := Timer.reset, sio := Sio.reset, console := Console.reset, pio := Pio.reset,
    harness := Harness.boot,
    freeCount := 0 }

end Sys2Proof.Machine
end

