-- ==== Sys2Proof/Machine/Ops.lean ====
section
/-! DEFINITION. The named operations: registers, memory, fetch, stack, raising an error, taking an
interrupt and returning from one, and the arbiter. -/

namespace Sys2Proof.Machine

/-! ### Bytes -/

/-- The low 8 bits of a script value (`70_reset_and_hazards.md` R421, `30_encoding.md` R111). -/
def byteOfInt (v : Int) : Byte := BitVec.ofInt 8 v

/-- A one-bit flag as a byte, 0 or 1. -/
def byteOfBool (b : Bool) : Byte := if b then 0x01#8 else 0x00#8

/-! ### General registers -/

/-- `x[i]` (`10_state.md` R20). -/
def State.reg (s : State) : Reg → Byte
  | .g0 => s.g0
  | .g1 => s.g1
  | .g2 => s.g2
  | .sp => s.sp

/-- `x[i] <- v` (`10_state.md` R20): no register is hard-wired or read-only. -/
def State.setReg (s : State) (r : Reg) (v : Byte) : State :=
  match r with
  | .g0 => { s with g0 := v }
  | .g1 => { s with g1 := v }
  | .g2 => { s with g2 := v }
  | .sp => { s with sp := v }

/-- `pc <- t`. -/
def State.setPc (s : State) (t : Byte) : State := { s with pc := t }

/-- `IE <- b`. -/
def State.setIe (s : State) (b : Bool) : State := { s with ie := b }

/-- `C`, `S` and `Z` written together. -/
def State.setFlags (s : State) (c sg z : Bool) : State :=
  { s with flagC := c, flagS := sg, flagZ := z }

/-- `run <- b` (`10_state.md` R32). -/
def State.setRun (s : State) (b : Bool) : State := { s with run := b }

/-! ### Peripheral registers -/

/-- The timer's state replaced. -/
def State.setTimer (s : State) (t : Timer) : State := { s with timer := t }

/-- The SIO's state replaced. -/
def State.setSio (s : State) (x : Sio) : State := { s with sio := x }

/-- The console interrupt's state replaced. -/
def State.setConsole (s : State) (x : Console) : State := { s with console := x }

/-- The other peripherals' state replaced. -/
def State.setPio (s : State) (x : Pio) : State := { s with pio := x }

/-- The host's own state replaced. -/
def State.setHarness (s : State) (x : Harness) : State := { s with harness := x }

/-! ### Memory -/

/-- The ROM contents (`20_memory.md` R66), `0xE0` first. -/
def iplBytes : List Byte :=
  [0x1F#8, 0xDC#8, 0xB0#8, 0xF6#8, 0xD0#8, 0xD6#8, 0xB0#8, 0xF6#8,
   0xD0#8, 0xDA#8, 0xA4#8, 0xFF#8, 0xB0#8, 0xF6#8, 0x21#8, 0x00#8,
   0x37#8, 0x01#8, 0x4B#8, 0x01#8, 0xA0#8, 0xEA#8, 0xC0#8, 0x03#8,
   0x63#8, 0x40#8, 0xA4#8, 0xF6#8, 0xC0#8, 0x02#8, 0xEC#8, 0xFF#8]

/-- What a cell holds at boot, which is what an unlisted address reads as: the IPL in ROM
(`20_memory.md` R66), `RESET_RAM` below it (R78; decision D18. DESIGN CHOICE, unsafe, log entry 7). -/
def resetByte (a : Nat) : Byte :=
  if a < Config.romStart.toNat then Config.resetRam
  else iplBytes.getD (a - Config.romStart.toNat) 0x00#8

/-- The cell at a key. -/
def Memory.lookup : Memory → Nat → Byte
  | [], a => resetByte a
  | (b, w) :: m, a => if a = b then w else Memory.lookup m a

/-- The entry for a key taken out: the cell then holds its boot contents. -/
def Memory.erase : Memory → Nat → Memory
  | [], _ => []
  | (b, w) :: m, a => if a = b then Memory.erase m a else (b, w) :: Memory.erase m a

/-- An entry put in, before the first greater key. -/
def Memory.insert : Memory → Nat → Byte → Memory
  | [], a, v => [(a, v)]
  | (b, w) :: m, a, v => if a < b then (a, v) :: (b, w) :: m else (b, w) :: Memory.insert m a v

/-- The cell at a key replaced: no entry where the value is the boot contents. -/
def Memory.put (m : Memory) (a : Nat) (v : Byte) : Memory :=
  if v = resetByte a then m.erase a else (m.erase a).insert a v

/-- The canonical form from the key `lo` on. -/
def Memory.wfFrom : Nat → Memory → Bool
  | _, [] => true
  | lo, (a, v) :: m =>
    decide (lo ≤ a) && decide (a < 256) && decide (v ≠ resetByte a) && Memory.wfFrom (a + 1) m

/-- The canonical form: keys below 256, strictly rising, no entry equal to the boot contents. -/
def Memory.wf (m : Memory) : Bool := Memory.wfFrom 0 m

/-- `MemRead(a, 1)` on a memory (`20_memory.md` R62). -/
def Memory.read (m : Memory) (a : Byte) : Byte := Memory.lookup m a.toNat

/-- `MemWrite(a, 1, v)` on a memory: the ROM gate (`20_memory.md` R63), which every writer of memory
goes through (R64). -/
def Memory.write (m : Memory) (a v : Byte) : Memory :=
  if a < Config.romStart then Memory.put m a.toNat v else m

/-- `MemRead(a, 1)` (`20_memory.md` R62). -/
def State.readMem (s : State) (a : Byte) : Byte := Memory.read s.mem a

/-- `MemWrite(a, 1, v)` (`20_memory.md` R63). -/
def State.writeMem (s : State) (a v : Byte) : State := { s with mem := Memory.write s.mem a v }

/-! ### Fetch -/

/-- The bytes at `PC`: the instruction byte and the byte after it, modulo 256
(`40_execution_cycle.md` R131; `20_memory.md` R68, R69). A read has no side effect (R62), so that
looking at the second byte of a one-byte instruction changes nothing. -/
def State.fetchBytes (s : State) : List Byte := [s.readMem s.pc, s.readMem (s.pc + 1#8)]

/-- `Fetch8` and `Decode` (`40_execution_cycle.md` R131, R132). -/
def State.fetch (s : State) : Except DecodeError Instr :=
  match decode s.fetchBytes with
  | .ok (i, _) => .ok i
  | .error e => .error e

/-- `PC` after the fetch of `n` bytes (`10_state.md` R26, R27). -/
def State.advancePc (s : State) (n : Nat) : State := s.setPc (s.pc + BitVec.ofNat 8 n)

/-! ### Stack -/

/-- `Push8(v)` (`40_execution_cycle.md` R136). -/
def State.push8 (s : State) (v : Byte) : State :=
  (s.setReg .sp (s.sp - 1#8)).writeMem (s.sp - 1#8) v

/-- `Pop8()` (`40_execution_cycle.md` R137): the byte, and the state after. -/
def State.pop8 (s : State) : Byte × State :=
  (s.readMem s.sp, s.setReg .sp (s.sp + 1#8))

/-! ### Errors -/

/-- `raise Error(cause)` (`40_execution_cycle.md` R135): `error <- 1; run <- 0`, nothing else written
but `PC`, which is unspecified: a free value (log entry 1). No cause is recorded (R300). -/
def State.raiseError (s : State) : State :=
  { s with error := true, run := false, pc := Config.errorPc s.freeCount,
           freeCount := s.freeCount + 1 }

/-! ### Interrupt entry and return -/

/-- The flags byte `IE<<7 | C<<2 | S<<1 | Z` (`10_state.md` R34). -/
def State.flagsByte (s : State) : Byte :=
  (byteOfBool s.ie <<< 7) ||| (byteOfBool s.flagC <<< 2) ||| (byteOfBool s.flagS <<< 1) |||
    byteOfBool s.flagZ

/-- `IE`, `C`, `S`, `Z` loaded from a flags byte, bits 6 to 3 ignored (`10_state.md` R34,
`47_system.md` R263; decision D23, log entry 27). -/
def State.loadFlagsByte (s : State) (f : Byte) : State :=
  (s.setFlags (f.getLsbD 2) (f.getLsbD 1) (f.getLsbD 0)).setIe (f.getLsbD 7)

/-- `Dispatch(vec)`, the interrupt entry (`60_exceptions.md` R320): the return address and then the
flags byte are pushed, `PC` is loaded from the vector cell, `IE` is cleared. -/
def State.dispatch (s : State) (vec : Byte) : State :=
  let s1 := s.push8 s.pc
  let s2 := s1.push8 s1.flagsByte
  (s2.setPc (s2.readMem vec)).setIe false

/-- The return from an interrupt (`47_system.md` R263): the flags byte and then the return address
are popped, and `IE`, `C`, `S`, `Z` restored. -/
def State.returnFromInterrupt (s : State) : State :=
  let p := s.pop8
  let q := p.2.pop8
  (q.2.setPc q.1).loadFlagsByte p.1

/-- The receive source requests (`60_exceptions.md` R312). -/
def State.rxRequest (s : State) : Bool := s.sio.rxFull && s.sio.rxIe

/-- The transmit source requests (`60_exceptions.md` R313). -/
def State.txRequest (s : State) : Bool := s.sio.txEmpty && s.sio.txIe

/-- `Arbitrate()` (`60_exceptions.md` R310): at most one dispatch, in the fixed priority order. -/
def State.arbitrate (s : State) : State :=
  if s.ie then
    if s.timer.pending then
      (s.setTimer { s.timer with pending := false }).dispatch Config.vecTimer
    else if s.rxRequest then s.dispatch Config.vecRx
    else if s.txRequest then s.dispatch Config.vecTx
    else if s.console.pending then
      (s.setConsole { s.console with pending := false }).dispatch Config.vecConsole
    else s
  else s

end Sys2Proof.Machine
end

