-- ==== Sys2Proof/Machine/Flags.lean ====
section
/-! DEFINITION. Every flag computation: the ALU results with their `C`, `S`, `Z`. -/

namespace Sys2Proof.Machine

/-- `S` of an 8-bit result (`10_state.md` R29): bit 7. -/
def signOf (v : Byte) : Bool := v.getLsbD 7

/-- `Z` of an 8-bit result (`10_state.md` R30): 1 when it is `0x00`. -/
def zeroOf (v : Byte) : Bool := v == 0x00#8

/-- An 8-bit result with a given carry, and `SetSZ` of it (`00_scope.md` R9, `10_state.md` R30). -/
def aluWithCarry (c : Bool) (v : Byte) : AluResult :=
  { value := v, c := c, s := signOf v, z := zeroOf v }

/-- The result and flags a 16-bit intermediate gives (`42_arithmetic_logic.md` R160): `C` is bit 8,
the rest comes from the low 8 bits. -/
def aluOf16 (t : BitVec 16) : AluResult := aluWithCarry (t.getLsbD 8) (t.setWidth 8)

/-- `ADD` (R160, R161): the zero-extended operands added in 16 bits. -/
def aluAdd (a v : Byte) : AluResult := aluOf16 (a.setWidth 16 + v.setWidth 16)

/-- `SUB` and `CMP` (R160, R162, R163): subtracted in 16 bits modulo 65536, so that bit 8 is the
borrow. -/
def aluSub (a v : Byte) : AluResult := aluOf16 (a.setWidth 16 - v.setWidth 16)

/-- `AND` (R164): `C` is cleared. -/
def aluAnd (a v : Byte) : AluResult := aluWithCarry false (a &&& v)

/-- `OR` (R165): `C` is cleared. -/
def aluOr (a v : Byte) : AluResult := aluWithCarry false (a ||| v)

/-- `XOR` (R166): `C` is cleared. -/
def aluXor (a v : Byte) : AluResult := aluWithCarry false (a ^^^ v)

/-- `SHLA` and `SHLL` (`43_shift.md` R171, R172): `C` is the old bit 7, bit 0 becomes 0. -/
def aluShiftLeft (a : Byte) : AluResult := aluWithCarry (a.getLsbD 7) (a <<< 1)

/-- `SHRA` (`43_shift.md` R173): `C` is the old bit 0, bit 7 is kept. -/
def aluShiftRightArith (a : Byte) : AluResult :=
  aluWithCarry (a.getLsbD 0) ((a &&& 0x80#8) ||| (a >>> 1))

/-- `SHRL` (`43_shift.md` R174): `C` is the old bit 0, bit 7 becomes 0. -/
def aluShiftRightLogic (a : Byte) : AluResult :=
  aluWithCarry (a.getLsbD 0) ((a >>> 1) &&& 0x7F#8)

/-- The flags of a result written, no register (`CMP`, R163). -/
def State.writeAluFlags (s : State) (r : AluResult) : State := s.setFlags r.c r.s r.z

/-- The flags and the value of a result written, the value to a register. -/
def State.writeAlu (s : State) (gr : Reg) (r : AluResult) : State :=
  (s.writeAluFlags r).setReg gr r.value

end Sys2Proof.Machine
end

