-- ==== Sys2Proof/Machine/Operands.lean ====
section
/-! DEFINITION. The operand forms: the effective address and the source operand. -/

namespace Sys2Proof.Machine

/-- `EA(xr)` with the operand byte `d` (`40_execution_cycle.md` R133): direct, or indexed by the whole
of `G1` or `G2` modulo 256. There is none for `XR` = `11`. -/
def State.ea (s : State) (xr : XR) (d : Byte) : Option Byte :=
  match xr with
  | .direct => some d
  | .g1 => some (d + s.g1)
  | .g2 => some (d + s.g2)
  | .imm => none

/-- `Operand(xr)` with the operand byte `d` (`40_execution_cycle.md` R134): the byte at the effective
address, or the operand byte itself. -/
def State.operand (s : State) (xr : XR) (d : Byte) : Byte :=
  match s.ea xr d with
  | some a => s.readMem a
  | none => d

end Sys2Proof.Machine
end

