-- ==== Sys2Proof/Machine/Alu.lean ====
section
/-! DEFINITION. Arithmetic and logic (`42_arithmetic_logic.md`). -/

namespace Sys2Proof.Machine

/-- `ADD GR, src` (R161). -/
def execAdd (gr : Reg) (xr : XR) (d : Byte) (s : State) : Outcome :=
  .next (s.writeAlu gr (aluAdd (s.reg gr) (s.operand xr d)))

/-- `SUB GR, src` (R162). -/
def execSub (gr : Reg) (xr : XR) (d : Byte) (s : State) : Outcome :=
  .next (s.writeAlu gr (aluSub (s.reg gr) (s.operand xr d)))

/-- `CMP GR, src` (R163): the flags of `SUB`, no register. -/
def execCmp (gr : Reg) (xr : XR) (d : Byte) (s : State) : Outcome :=
  .next (s.writeAluFlags (aluSub (s.reg gr) (s.operand xr d)))

/-- `AND GR, src` (R164). -/
def execAnd (gr : Reg) (xr : XR) (d : Byte) (s : State) : Outcome :=
  .next (s.writeAlu gr (aluAnd (s.reg gr) (s.operand xr d)))

/-- `OR GR, src` (R165). -/
def execOr (gr : Reg) (xr : XR) (d : Byte) (s : State) : Outcome :=
  .next (s.writeAlu gr (aluOr (s.reg gr) (s.operand xr d)))

/-- `XOR GR, src` (R166). -/
def execXor (gr : Reg) (xr : XR) (d : Byte) (s : State) : Outcome :=
  .next (s.writeAlu gr (aluXor (s.reg gr) (s.operand xr d)))

end Sys2Proof.Machine
end

