-- ==== Sys2Proof/Machine/Branch.lean ====
section
/-! DEFINITION. Control transfer (`44_branch_call.md`). -/

namespace Sys2Proof.Machine

/-- What the eight jumps share (R180): the target is formed whatever the condition, then `PC` is
overwritten when it holds. `XR` = `11` is no instruction of the machine but the illegal-instruction
error, whatever the condition (`30_encoding.md` R97, log entry 16). -/
def State.jumpIf (s : State) (taken : Bool) (xr : XR) (d : Byte) : State :=
  match s.ea xr d with
  | some t => if taken then s.setPc t else s
  | none => s.raiseError

/-- `JMP addr` (R181). -/
def execJmp (xr : XR) (d : Byte) (s : State) : Outcome := .next (s.jumpIf true xr d)

/-- `JZ addr` (R182). -/
def execJz (xr : XR) (d : Byte) (s : State) : Outcome := .next (s.jumpIf s.flagZ xr d)

/-- `JC addr` (R183). -/
def execJc (xr : XR) (d : Byte) (s : State) : Outcome := .next (s.jumpIf s.flagC xr d)

/-- `JM addr` (R184). -/
def execJm (xr : XR) (d : Byte) (s : State) : Outcome := .next (s.jumpIf s.flagS xr d)

/-- `CALL addr` (R185): the target is formed, then the return address pushed, then `PC` loaded. -/
def execCall (xr : XR) (d : Byte) (s : State) : Outcome :=
  match s.ea xr d with
  | some t => .next ((s.push8 s.pc).setPc t)
  | none => .next s.raiseError

/-- `JNZ addr` (R186). -/
def execJnz (xr : XR) (d : Byte) (s : State) : Outcome := .next (s.jumpIf (!s.flagZ) xr d)

/-- `JNC addr` (R187). -/
def execJnc (xr : XR) (d : Byte) (s : State) : Outcome := .next (s.jumpIf (!s.flagC) xr d)

/-- `JNM addr` (R188). -/
def execJnm (xr : XR) (d : Byte) (s : State) : Outcome := .next (s.jumpIf (!s.flagS) xr d)

/-- `RET` (R189): one byte is popped into `PC`. -/
def execRet (s : State) : Outcome := .next (s.pop8.2.setPc s.pop8.1)

end Sys2Proof.Machine
end

