-- ==== Sys2Proof/Machine/Ports.lean ====
section
/-! DEFINITION. The port decoder: the sixteen input ports and the sixteen output ports. -/

namespace Sys2Proof.Machine

/-- Input port `0x3`, the SIO status (`45_io_ports.md` R205; bits 5 to 0 are 0 by decision D13, log
entry 24). -/
def Sio.status (x : Sio) : Byte := (byteOfBool x.txEmpty <<< 7) ||| (byteOfBool x.rxFull <<< 6)

/-- Input port `0x5`, the timer status (`45_io_ports.md` R207; bits 6 to 0 are 0 by decision D13, log
entry 24). -/
def Timer.status (t : Timer) : Byte := byteOfBool t.elapsed <<< 7

/-- `PortIn(p)` for `p` in `0x0..0xF` (`45_io_ports.md` R200, R202 to R211): the value read, and the
state after the read. `IN` never reads a port above `0xF` (R233). -/
def State.portIn (s : State) (p : Byte) : Byte × State :=
  match p.toNat with
  | 0x0 => (s.pio.dataSw, s)
  | 0x1 => (s.pio.dataSw, s)
  | 0x2 => (s.sio.rxData, s.setSio { s.sio with rxFull := false })
  | 0x3 => (s.sio.status, s)
  | 0x4 => (s.timer.counter, s)
  | 0x5 => (s.timer.status, s.setTimer { s.timer with elapsed := false })
  | 0x6 => (0x00#8, s)
  | 0x7 => (s.pio.parIn, s)
  | 0x8 => (s.pio.adc0, s)
  | 0x9 => (s.pio.adc1, s)
  | 0xA => (s.pio.adc2, s)
  | 0xB => (s.pio.adc3, s)
  | 0xC => (0x00#8, s)
  | 0xD => (0x00#8, s)
  | 0xE => (0x00#8, s)
  | _ => (0x00#8, s)

/-- Output port `0x5`, timer control (`45_io_ports.md` R221): the enables are written, and a 1 in bit 0
clears the elapsed latch and the counter. `tmr_acc` and `tmr_pending` are left alone (decision D11,
log entry 22). -/
def Timer.writeControl (t : Timer) (v : Byte) : Timer :=
  if v.getLsbD 0 then
    { t with ie := v.getLsbD 7, enable := true, elapsed := false, counter := 0x00#8 }
  else { t with ie := v.getLsbD 7, enable := false }

/-- Output port `0xC`, PIO control (`45_io_ports.md` R225): the four bits are taken only with bit 7
set (decision D15, log entry 24). -/
def Pio.writeControl (x : Pio) (v : Byte) : Pio :=
  if v.getLsbD 7 then { x with extEnable := true, extOut := v.extractLsb' 0 4 }
  else { x with extEnable := false }

/-- `PortOut(p, v)` for `p` in `0x0..0xF` (`45_io_ports.md` R201, R216 to R226). `OUT` never writes a
port above `0xF` (R233). -/
def State.portOut (s : State) (p v : Byte) : State :=
  match p.toNat with
  | 0x0 => s.setPio { s.pio with buzzer := v.getLsbD 0 }
  | 0x1 => s.setPio { s.pio with speaker := v.getLsbD 0 }
  | 0x2 => s.setSio { s.sio with txData := v, txEmpty := false }
  | 0x3 => s.setSio { s.sio with txIe := v.getLsbD 7, rxIe := v.getLsbD 6 }
  | 0x4 => s.setTimer { s.timer with period := v }
  | 0x5 => s.setTimer (s.timer.writeControl v)
  | 0x6 => s.setConsole { s.console with ie := v.getLsbD 0 }
  | 0x7 => s.setPio { s.pio with parOut := v }
  | 0x8 => s
  | 0x9 => s
  | 0xA => s
  | 0xB => s
  | 0xC => s.setPio (s.pio.writeControl v)
  | 0xD => s
  | 0xE => s
  | _ => s

end Sys2Proof.Machine
end

