-- ==== Sys2Proof/Machine/InOut.lean ====
section
/-! DEFINITION. Input and output (`45_io_ports.md`). -/

namespace Sys2Proof.Machine

/-- The port number is one of the sixteen (R233): the operand byte as it stands, never indexed
(decision D24, log entry 27). -/
def portInRange (p : Byte) : Bool := decide (p.toNat < Config.nPorts)

/-- `IN GR, port` (R231): no flag is written. A port above `0x0F` raises the error `IoPortRange`
before any port or register is touched (R233). -/
def execIn (gr : Reg) (p : Byte) (s : State) : Outcome :=
  if portInRange p then .next ((s.portIn p).2.setReg gr (s.portIn p).1) else .next s.raiseError

/-- `OUT GR, port` (R232). A port above `0x0F` raises the error `IoPortRange` (R233). -/
def execOut (gr : Reg) (p : Byte) (s : State) : Outcome :=
  if portInRange p then .next (s.portOut p (s.reg gr)) else .next s.raiseError

end Sys2Proof.Machine
end

