-- ==== Sys2Proof/Machine/LoadStore.lean ====
section
/-! DEFINITION. Load and store (`41_load_store.md`). In every meaning `PC` already addresses the next
instruction (log entry 29), and the operand byte stands in the instruction. -/

namespace Sys2Proof.Machine

/-- `LD GR, src` (R150): no flag is written. -/
def execLd (gr : Reg) (xr : XR) (d : Byte) (s : State) : Outcome :=
  .next (s.setReg gr (s.operand xr d))

/-- `ST GR, dst` (R151): through the ROM gate. `XR` = `11` is no instruction of the machine but the
illegal-instruction error (`30_encoding.md` R97, log entry 16). -/
def execSt (gr : Reg) (xr : XR) (d : Byte) (s : State) : Outcome :=
  match s.ea xr d with
  | some a => .next (s.writeMem a (s.reg gr))
  | none => .next s.raiseError

end Sys2Proof.Machine
end

