-- ==== Sys2Proof/Machine/Shift.lean ====
section
/-! DEFINITION. Shifts by one bit position (`43_shift.md` R170). -/

namespace Sys2Proof.Machine

/-- `SHLA GR` (R171). -/
def execShla (gr : Reg) (s : State) : Outcome :=
  .next (s.writeAlu gr (aluShiftLeft (s.reg gr)))

/-- `SHLL GR` (R172): the effect of `SHLA` under another encoding. -/
def execShll (gr : Reg) (s : State) : Outcome :=
  .next (s.writeAlu gr (aluShiftLeft (s.reg gr)))

/-- `SHRA GR` (R173). -/
def execShra (gr : Reg) (s : State) : Outcome :=
  .next (s.writeAlu gr (aluShiftRightArith (s.reg gr)))

/-- `SHRL GR` (R174). -/
def execShrl (gr : Reg) (s : State) : Outcome :=
  .next (s.writeAlu gr (aluShiftRightLogic (s.reg gr)))

end Sys2Proof.Machine
end

