-- ==== Sys2Proof/Machine/Stack.lean ====
section
/-! DEFINITION. The stack instructions (`46_stack.md`). -/

namespace Sys2Proof.Machine

/-- `PUSH GR` (R250): `SP` is decremented first and the register read after it, so that `PUSH SP`
stores the decremented `SP` (decision D8, log entry 21). -/
def execPush (gr : Reg) (s : State) : Outcome :=
  let s1 := s.setReg .sp (s.sp - 1#8)
  .next (s1.writeMem s1.sp (s1.reg gr))

/-- `POP GR` (R251): the destination is written after `SP` is incremented, so that `POP SP` leaves the
byte read (decision D8, log entry 21). -/
def execPop (gr : Reg) (s : State) : Outcome := .next (s.pop8.2.setReg gr s.pop8.1)

end Sys2Proof.Machine
end

