-- ==== Sys2Proof/Machine/System.lean ====
section
/-! DEFINITION. The system instructions (`47_system.md`). -/

namespace Sys2Proof.Machine

/-- `NO` (R260): nothing but the fetch. -/
def execNo (s : State) : Outcome := .next s

/-- `EI` (R261): the arbitration of its own step already sees `IE` = 1. -/
def execEi (s : State) : Outcome := .next (s.setIe true)

/-- `DI` (R262): pending requests wait. -/
def execDi (s : State) : Outcome := .next (s.setIe false)

/-- `RETI` (R263). -/
def execReti (s : State) : Outcome := .next s.returnFromInterrupt

/-- `HALT` (R264): a normal stop, the error flag stays 0. -/
def execHalt (s : State) : Outcome := .next (s.setRun false)

end Sys2Proof.Machine
end

