-- ==== Sys2Proof/Machine/Dispatch.lean ====
section
/-! DEFINITION. `Execute` (`40_execution_cycle.md` R130): one arm per instruction, each one call of its
meaning. -/

namespace Sys2Proof.Machine

def exec (i : Instr) (s : State) : Host.Outcome State Fault Refusal :=
  match i with
  | .no => Sys2Proof.Machine.execNo s
  | .ld gr xr d => Sys2Proof.Machine.execLd gr xr d s
  | .st gr xr d => Sys2Proof.Machine.execSt gr xr d s
  | .add gr xr d => Sys2Proof.Machine.execAdd gr xr d s
  | .sub gr xr d => Sys2Proof.Machine.execSub gr xr d s
  | .cmp gr xr d => Sys2Proof.Machine.execCmp gr xr d s
  | .and gr xr d => Sys2Proof.Machine.execAnd gr xr d s
  | .or gr xr d => Sys2Proof.Machine.execOr gr xr d s
  | .xor gr xr d => Sys2Proof.Machine.execXor gr xr d s
  | .shla gr => Sys2Proof.Machine.execShla gr s
  | .shll gr => Sys2Proof.Machine.execShll gr s
  | .shra gr => Sys2Proof.Machine.execShra gr s
  | .shrl gr => Sys2Proof.Machine.execShrl gr s
  | .jmp xr d => Sys2Proof.Machine.execJmp xr d s
  | .jz xr d => Sys2Proof.Machine.execJz xr d s
  | .jc xr d => Sys2Proof.Machine.execJc xr d s
  | .jm xr d => Sys2Proof.Machine.execJm xr d s
  | .call xr d => Sys2Proof.Machine.execCall xr d s
  | .jnz xr d => Sys2Proof.Machine.execJnz xr d s
  | .jnc xr d => Sys2Proof.Machine.execJnc xr d s
  | .jnm xr d => Sys2Proof.Machine.execJnm xr d s
  | .inp gr p => Sys2Proof.Machine.execIn gr p s
  | .out gr p => Sys2Proof.Machine.execOut gr p s
  | .push gr => Sys2Proof.Machine.execPush gr s
  | .pop gr => Sys2Proof.Machine.execPop gr s
  | .ei => Sys2Proof.Machine.execEi s
  | .di => Sys2Proof.Machine.execDi s
  | .ret => Sys2Proof.Machine.execRet s
  | .reti => Sys2Proof.Machine.execReti s
  | .halt => Sys2Proof.Machine.execHalt s

end Sys2Proof.Machine
end

