-- ==== Sys2Proof/Machine/Harness.lean ====
section
/-! DEFINITION. The host (`70_reset_and_hazards.md`): boot and the image load, the events, the wait
loops and the service of the serial line. -/

namespace Sys2Proof.Machine

/-! ### Reset, boot, image load -/

/-- The reset event (R400): CPU and peripheral state as after reset, memory and the host's own state
unchanged (decision D18, log entry 7). The model's count of free values is no state of the machine
and goes on. -/
def State.resetEvent (s : State) : State :=
  { State.reset with mem := s.mem, harness := s.harness, freeCount := s.freeCount }

/-- The bytes of an image written from an address on, modulo 256, through the ROM gate (R405). -/
def State.loadBytes : State → Byte → List Byte → State
  | s, _, [] => s
  | s, a, b :: bs => (s.writeMem a b).loadBytes (a + 1#8) bs

/-- The image load (R405): start address, size, then the image. None for a file shorter than its size
says; what follows the image is not read (decisions D19, D27, log entries 25 and 33). -/
def State.loadImage (s : State) : List Byte → Option State
  | start :: size :: body =>
    if size.toNat ≤ body.length then some (s.loadBytes start (body.take size.toNat)) else none
  | _ => none

/-- Boot (R401): the reset state, the image loaded, the host about to consume its script. -/
def boot (image : List Byte) (script : List Event) : Option State :=
  match State.reset.loadImage image with
  | some s => some (s.setHarness { Harness.boot with events := script })
  | none => none

/-! ### What the events write -/

/-- Set register (R421). -/
def State.setHostReg (s : State) (r : HostReg) (v : Byte) : State :=
  match r with
  | .gen g => s.setReg g v
  | .pc => s.setPc v

/-- Set flag (R422). -/
def State.setHostFlag (s : State) (f : HostFlag) (v : Bool) : State :=
  match f with
  | .c => s.setFlags v s.flagS s.flagZ
  | .s => s.setFlags s.flagC v s.flagZ
  | .z => s.setFlags s.flagC s.flagS v

/-- An ADC channel replaced (R425). -/
def Pio.setAdc (x : Pio) (ch : AdcChannel) (v : Byte) : Pio :=
  match ch with
  | .ch0 => { x with adc0 := v }
  | .ch1 => { x with adc1 := v }
  | .ch2 => { x with adc2 := v }
  | .ch3 => { x with adc3 := v }

/-- The byte of a voltage in millivolts (R425): `clip(trunc(v * 255 / 3300))` (decision D28, log
entry 14). -/
def analogByte (millivolts : Int) : Byte :=
  let x := (millivolts * 255).tdiv 3300
  if x < 0 then 0x00#8 else if 255 < x then 0xFF#8 else byteOfInt x

/-- The byte an ADC channel is driven to by one bit of the parallel input (R426): 231 or 0
(decision D28, log entry 14). -/
def analogOfBit (b : Bool) : Byte := if b then 231#8 else 0#8

/-- Parallel-in (R426): `par_in`, and the four ADC channels from its low four bits. -/
def Pio.setParallel (x : Pio) (v : Byte) : Pio :=
  { x with
    parIn := v
    adc0 := analogOfBit (v.getLsbD 0)
    adc1 := analogOfBit (v.getLsbD 1)
    adc2 := analogOfBit (v.getLsbD 2)
    adc3 := analogOfBit (v.getLsbD 3) }

/-- The console request (R427): remembered only when `con_ie` is 1 at that moment (decision D12, log
entry 23). -/
def Console.raise (x : Console) : Console := { x with pending := x.pending || x.ie }

/-- Bytes appended to the receive queue, in order (R429). -/
def Harness.enqueue (h : Harness) (vs : List Byte) : Harness :=
  { h with rxQueue := h.rxQueue ++ vs }

/-! ### The printer -/

/-- Something given to the printer. -/
def Harness.print (h : Harness) (x : PrinterItem) : Harness := { h with printer := h.printer ++ [x] }

/-- The byte a print event samples (R440): the state is read, not the ports. -/
def State.sample (s : State) : PrintWhat → Byte
  | .mem a => s.readMem (byteOfInt a)
  | .reg (.gen r) => s.reg r
  | .reg .pc => s.pc
  | .flag .c => byteOfBool s.flagC
  | .flag .s => byteOfBool s.flagS
  | .flag .z => byteOfBool s.flagZ
  | .buzzer => byteOfBool s.pio.buzzer
  | .speaker => byteOfBool s.pio.speaker
  | .run => byteOfBool s.run
  | .parallel => s.pio.parOut
  | .extParallel => s.pio.extOut.setWidth 8

/-! ### The wait loops -/

/-- The condition of a wait event's loop (R432). -/
def State.waitHolds (s : State) : WaitKind → Bool
  | .stop => true
  | .serial => s.sio.rxFull || !s.harness.rxQueue.isEmpty
  | .states n total => decide (total < n)

/-- The states of a quantum counted (R432, "account"). -/
def WaitKind.account (n : Nat) : WaitKind → WaitKind
  | .stop => .stop
  | .serial => .serial
  | .states m total => .states m (total + n)

/-- The head of the wait loop (R432): while `run` is 1 and the condition holds a quantum begins, from
0 states (R430; decision D20, log entry 26); else the wait event is over. -/
def State.openQuantum (s : State) (k : WaitKind) : State :=
  s.setHarness
    { s.harness with wait := if s.run && s.waitHolds k then some { kind := k, acc := 0 } else none }

/-- The transmit half of `Service()` (R431): a byte waiting is given to the printer. -/
def State.drainTx (s : State) : State :=
  if s.sio.txEmpty then s
  else (s.setSio { s.sio with txEmpty := true }).setHarness
    (s.harness.print (.byte .serial s.sio.txData))

/-- The receive half of `Service()` (R431): the next queued byte is delivered into an empty receiver. -/
def State.deliverRx (s : State) : State :=
  if s.sio.rxFull then s
  else
    match s.harness.rxQueue with
    | [] => s
    | b :: q =>
      (s.setSio { s.sio with rxData := b, rxFull := true }).setHarness { s.harness with rxQueue := q }

/-- `Service()` (R431): transmit first. -/
def State.service (s : State) : State := s.drainTx.deliverRx

/-- The end of a quantum (R432): the service, the account, and the loop's head again (log entry 11). -/
def State.endQuantum (s : State) (w : Wait) : State := s.service.openQuantum (w.kind.account w.acc)

/-- `WAIT MS n` in states (R433; decision D21, log entry 26). -/
def statesOfMs (n : Nat) : Nat := n * Config.statesPerSec / 1000

/-- `WAIT SEC n` in states (R433). -/
def statesOfSec (n : Nat) : Nat := n * Config.statesPerSec

/-! ### The events -/

/-- One event, taken off the list, done (R420). -/
def State.applyEvent (s : State) : Event → Outcome
  | .setReg r v => .next (s.setHostReg r (byteOfInt v))
  | .setFlag f v => .next (s.setHostFlag f v)
  | .setMem a v => .next (s.writeMem (byteOfInt a) (byteOfInt v))
  | .dataSwitch v => .next (s.setPio { s.pio with dataSw := byteOfInt v })
  | .analogIn ch v => .next (s.setPio (s.pio.setAdc ch v))
  | .parallelIn v => .next (s.setPio (s.pio.setParallel (byteOfInt v)))
  | .write => if s.run then .next (s.setConsole s.console.raise) else .refused .writeWhileStopped
  | .run => .next (s.setRun true)
  | .stop => .next (s.setRun false)
  | .reset => .next s.resetEvent
  | .serialIn vs => .next (s.setHarness (s.harness.enqueue (vs.map byteOfInt)))
  | .waitStates n => .next (s.openQuantum (.states n 0))
  | .waitMs n => .next (s.openQuantum (.states (statesOfMs n) 0))
  | .waitSec n => .next (s.openQuantum (.states (statesOfSec n) 0))
  | .waitSerial => .next (s.openQuantum .serial)
  | .waitStop => .next (s.openQuantum .stop)
  | .print w => .next (s.setHarness (s.harness.print (.byte .print (s.sample w))))
  | .setMode c m => .next (s.setHarness (s.harness.print (.mode c m)))
  | .endScript => .next (s.setHarness { s.harness with events := [] })

end Sys2Proof.Machine
end

