-- ==== Sys2Proof/Machine/Timer.lean ====
section
/-! DEFINITION. The virtual time: the states each instruction consumes, and the timer. -/

namespace Sys2Proof.Machine

/-- The states an instruction consumes (`40_execution_cycle.md` R140). `EI`, `DI`, `RET`, `RETI` and
`HALT` are the spec's decisions D6 and D7 (log entry 20). A step that ends in error consumes none,
which `State.finishStep` says. -/
def statesOf : Instr → Nat
  | .no => 2
  | .ld _ _ _ => 4
  | .st _ _ _ => 3
  | .add _ _ _ => 4
  | .sub _ _ _ => 4
  | .cmp _ _ _ => 4
  | .and _ _ _ => 4
  | .or _ _ _ => 4
  | .xor _ _ _ => 4
  | .shla _ => 3
  | .shll _ => 3
  | .shra _ => 3
  | .shrl _ => 3
  | .jmp _ _ => 3
  | .jz _ _ => 3
  | .jc _ _ => 3
  | .jm _ _ => 3
  | .call _ _ => 4
  | .jnz _ _ => 3
  | .jnc _ _ => 3
  | .jnm _ _ => 3
  | .inp _ _ => 4
  | .out _ _ => 3
  | .push _ => 3
  | .pop _ => 4
  | .ei => 3
  | .di => 3
  | .ret => 4
  | .reti => 4
  | .halt => 0

/-- `TimerTick()` (`60_exceptions.md` R331): the comparison comes before the increment
(`90_conflicts.md` C2; decision D10, log entry 22). -/
def Timer.tick (t : Timer) : Timer :=
  if t.counter = t.period then
    { t with counter := 0x00#8, elapsed := true, pending := t.pending || t.ie }
  else { t with counter := t.counter + 1#8 }

/-- `TimerAdvance(n)` (`60_exceptions.md` R330): the accumulator runs whether or not the timer is
enabled, the excess over a tick is discarded, and the enable gates the tick (decision D9, log
entry 22). -/
def Timer.advance (n : Nat) (t : Timer) : Timer :=
  if t.acc + n < Config.timerTickStates then { t with acc := t.acc + n }
  else if t.enable then Timer.tick { t with acc := 0 }
  else { t with acc := 0 }

/-- `TimerAdvance(n)` on the state. -/
def State.timerAdvance (n : Nat) (s : State) : State := s.setTimer (Timer.advance n s.timer)

/-- The host's account of the states a step returns (`40_execution_cycle.md` R130, "return n"): added
to the quantum in progress, if one is (`70_reset_and_hazards.md` R430). -/
def State.accountStates (n : Nat) (s : State) : State :=
  match s.harness.wait with
  | none => s
  | some w => s.setHarness { s.harness with wait := some { w with acc := w.acc + n } }

/-- The end of a step after `Execute` (`40_execution_cycle.md` R130, `60_exceptions.md` R316): an error
ends it at once; else the timer advances by `n` states, then, if `run` is still 1, the arbiter. -/
def State.finishStep (n : Nat) (s : State) : State :=
  if s.error then s
  else
    let s1 := (s.timerAdvance n).accountStates n
    if s1.run then s1.arbitrate else s1

end Sys2Proof.Machine
end

