-- ==== Sys2Proof/Machine/Cycle.lean ====
section
/-! DEFINITION. The CPU step, and which agent moves next. -/

namespace Sys2Proof.Machine

/-- `Step()` (`40_execution_cycle.md` R130), enabled when `run` is 1 and `error` is 0 (R138): fetch and
decode, an illegal byte raising the error before anything else (R132); `Execute` with `PC` past the
instruction (log entry 29); then the timer, the account of states and the arbiter. -/
def State.cpuStep (s : State) : Outcome :=
  match s.fetch with
  | .error _ => .next s.raiseError
  | .ok i =>
    match exec i (s.advancePc i.size) with
    | .next t => .next (t.finishStep (statesOf i))
    | .fault r => .fault r
    | .refused r => .refused r

/-- One step of the whole machine: the CPU's, or the host's between CPU steps (`00_scope.md` R4).
* From the error state no step is defined (`10_state.md` R33, `60_exceptions.md` R301; log entry 2).
* In a wait event the CPU steps until the quantum is full or `run` is 0 (`70_reset_and_hazards.md`
  R430), and then the host ends the quantum (R432).
* Out of one the host consumes its next event (R420).
* With no event left the machine is single-stepped (`60_exceptions.md` R343, log entry 10), and a
  stopped CPU changes nothing (`40_execution_cycle.md` R138, log entry 3). -/
def State.turn (s : State) : Outcome :=
  if s.error then .fault .errorState
  else
    match s.harness.wait with
    | some w =>
      if s.run && decide (w.acc < Config.serialUnitStates) then s.cpuStep else .next (s.endQuantum w)
    | none =>
      match s.harness.events with
      | e :: rest => (s.setHarness { s.harness with events := rest }).applyEvent e
      | [] => if s.run then s.cpuStep else .next s

/-- The bytes stored from an address on, modulo 256, past the ROM gate: `State.withFetchWord` stands
for no access of the machine (log entry 9). -/
def State.pokeBytes : State → Byte → List Byte → State
  | s, _, [] => s
  | s, a, b :: bs =>
    State.pokeBytes { s with mem := Memory.put s.mem a.toNat b } (a + 1#8) bs

end Sys2Proof.Machine
end

