-- ==== Sys2Proof/Machine/Step.lean ====
section
/-! DEFINITION. The machine's step, and the host's way to place one instruction. -/

namespace Sys2Proof.Machine

/-- One step (`State.turn`). -/
def step (s : State) : Host.Outcome State Fault Refusal := s.turn

/-- The state with a table row's instruction stored at `PC`, the CPU running and the host out of any
script, so that the next step runs it (log entry 9). -/
def State.withFetchWord (s : State) (nbits w : Nat) : State :=
  let s1 := s.pokeBytes s.pc (tableBytes nbits w)
  { s1 with
    run := true
    error := false
    harness := { s.harness with events := [], wait := none } }

end Sys2Proof.Machine
end

