-- ==== Sys2Proof/Safety.lean ====
section
/-! DEFINITION. What counts as a safe run, the run states, the machine's invariant, and the words
that statements about frames use. -/

namespace Sys2Proof.Machine

/-! ### Runs -/

/-- A state that some number of steps reach. -/
inductive Reaches (s : State) : State → Prop
  | refl : Reaches s s
  | tail {t u : State} : Reaches s t → step t = .next u → Reaches s u

/-- A safe state: the error flag is 0. A state with `error` = 1 is never a result
(`60_exceptions.md` R301). -/
abbrev State.Safe (s : State) : Prop := s.error = false

/-- Every state that a run from here reaches is safe. -/
def State.RunsSafely (s : State) : Prop := ∀ t, Reaches s t → t.Safe

/-- The CPU is running (`60_exceptions.md` R344). -/
abbrev State.Running (s : State) : Prop := s.run = true ∧ s.error = false

/-- The CPU is stopped (`60_exceptions.md` R344). -/
abbrev State.Stopped (s : State) : Prop := s.run = false ∧ s.error = false

/-- The next step is the CPU's: it is running, and it is single-stepped or its quantum is not full
(`70_reset_and_hazards.md` R430; log entry 10). -/
def State.CpuMoves (s : State) : Prop :=
  s.Running ∧
    ((∃ w, s.harness.wait = some w ∧ w.acc < Config.serialUnitStates) ∨
      (s.harness.wait = none ∧ s.harness.events = []))

/-- The next step is the host's, with the event `e` (`70_reset_and_hazards.md` R420). -/
def State.HostMoves (s : State) (e : Event) (rest : List Event) : Prop :=
  s.error = false ∧ s.harness.wait = none ∧ s.harness.events = e :: rest

/-- The state with its first event taken off the list. -/
def State.withEvents (s : State) (rest : List Event) : State :=
  { s with harness := { s.harness with events := rest } }

/-! ### Frames -/

/-- Every general register but the listed ones holds what it held. -/
def SameRegs (except : List Reg) (s t : State) : Prop := ∀ r, r ∉ except → t.reg r = s.reg r

/-- `C`, `S`, `Z` are unchanged. -/
def SameFlags (s t : State) : Prop :=
  t.flagC = s.flagC ∧ t.flagS = s.flagS ∧ t.flagZ = s.flagZ

/-- Every byte of memory but those at the listed addresses reads as before. -/
def SameMem (except : List Byte) (s t : State) : Prop :=
  ∀ a, a ∉ except → t.readMem a = s.readMem a

/-- `run` and `error` are unchanged. -/
def SameRun (s t : State) : Prop := t.run = s.run ∧ t.error = s.error

/-- No peripheral register is changed. -/
def SameDevices (s t : State) : Prop :=
  t.timer = s.timer ∧ t.sio = s.sio ∧ t.console = s.console ∧ t.pio = s.pio

/-- The host's own state and the count of free values are unchanged. -/
def SameHost (s t : State) : Prop := t.harness = s.harness ∧ t.freeCount = s.freeCount

/-- What no instruction but a few touches: `IE`, `run`, `error`, the peripherals, the host. -/
def SameRest (s t : State) : Prop :=
  t.ie = s.ie ∧ SameRun s t ∧ SameDevices s t ∧ SameHost s t

/-! ### The invariant -/

/-- Memory has its canonical form. -/
def State.MemCanonical (s : State) : Prop := Memory.wf s.mem = true

/-- Every ROM cell reads as its IPL byte (`20_memory.md` R65). -/
def State.RomIntact (s : State) : Prop :=
  ∀ a : Byte, Config.romStart ≤ a → s.readMem a = resetByte a.toNat

/-- The accumulator stays below a tick between steps (`60_exceptions.md` R330). -/
def State.AccBelowTick (s : State) : Prop := s.timer.acc < Config.timerTickStates

/-- The CPU is running, stopped or in error, one of the three (`60_exceptions.md` R344): in error it
does not run. -/
def State.ErrorStops (s : State) : Prop := s.error = true → s.run = false

/-- A quantum is at most 35 states (`70_reset_and_hazards.md` R430). -/
def State.QuantumBounded (s : State) : Prop :=
  ∀ w, s.harness.wait = some w → w.acc ≤ 35

/-- What every step keeps. -/
structure State.Inv (s : State) : Prop where
  memCanonical : s.MemCanonical
  romIntact : s.RomIntact
  accBelowTick : s.AccBelowTick
  errorStops : s.ErrorStops
  quantumBounded : s.QuantumBounded

end Sys2Proof.Machine
end

