-- ==== Sys2Proof/Certificates/Slice0/Obligations.lean ====
section
/-! DEFINITION. The statements for the provers. A statement marked "the spec's own decision" rests on a
row of `92_eei_decisions.md`, which the spec marks as its own choice, not its source's. -/

namespace Sys2Proof.Statements

open Sys2Proof.Machine

/-! ### Words the statements share -/

/-- The instruction byte `op GR XR` as a number (`30_encoding.md` R91). -/
def firstByte (op gr xr : Nat) : Byte := BitVec.ofNat 8 (16 * op + 4 * gr + xr)

/-- The 70 illegal instruction bytes, as `30_encoding.md` R97 lists them. -/
def illegalBytes : List Byte :=
  [0x01#8, 0x02#8, 0x03#8, 0x04#8, 0x05#8, 0x06#8, 0x07#8, 0x08#8, 0x09#8, 0x0A#8, 0x0B#8, 0x0C#8,
    0x0D#8, 0x0E#8, 0x0F#8] ++
  [0x23#8, 0x27#8, 0x2B#8, 0x2F#8] ++
  [0xA3#8, 0xA7#8, 0xAB#8, 0xAF#8] ++
  [0xB3#8, 0xB7#8, 0xBB#8, 0xBF#8] ++
  [0xC1#8, 0xC2#8, 0xC5#8, 0xC6#8, 0xC9#8, 0xCA#8, 0xCD#8, 0xCE#8] ++
  [0xD1#8, 0xD3#8, 0xD5#8, 0xD7#8, 0xD9#8, 0xDB#8, 0xDD#8, 0xDF#8] ++
  [0xE1#8, 0xE2#8, 0xE4#8, 0xE5#8, 0xE6#8, 0xE7#8, 0xE8#8, 0xE9#8, 0xEA#8, 0xEB#8, 0xED#8, 0xEE#8] ++
  [0xF0#8, 0xF1#8, 0xF2#8, 0xF3#8, 0xF4#8, 0xF5#8, 0xF6#8, 0xF7#8, 0xF8#8, 0xF9#8, 0xFA#8, 0xFB#8,
    0xFC#8, 0xFD#8, 0xFE#8]

/-- A two-operand ALU instruction with opcode `op` runs on every state and in every form: it computes
`f` of the register and the operand, writes it when `writes`, and sets the flags; nothing else
changes. -/
def AluLaw (mk : Reg → XR → Byte → Instr) (op : Nat) (writes : Bool) (f : Byte → Byte → Byte)
    (carry : Byte → Byte → Bool) : Prop :=
  ∀ (gr : Reg) (xr : XR) (d : Byte) (s : State),
    encode (mk gr xr d) = [firstByte op gr.field.toNat xr.field.toNat, d] ∧
    statesOf (mk gr xr d) = 4 ∧
    ∃ t, exec (mk gr xr d) s = .next t ∧
      t.reg gr = (if writes then f (s.reg gr) (s.operand xr d) else s.reg gr) ∧
      t.flagC = carry (s.reg gr) (s.operand xr d) ∧
      t.flagS = (f (s.reg gr) (s.operand xr d)).msb ∧
      (t.flagZ = true ↔ f (s.reg gr) (s.operand xr d) = 0#8) ∧
      SameRegs [gr] s t ∧ SameMem [] s t ∧ SameRest s t ∧ t.pc = s.pc

/-- A shift with sub-opcode `sub` runs on every state and register: bit `k` of the result is
`bit k` of the old register, `C` is bit `out` of it, `S` and `Z` come from the result, nothing else
changes. -/
def ShiftLaw (mk : Reg → Instr) (sub : Nat) (out : Nat) (bit : Byte → Nat → Bool) : Prop :=
  ∀ (gr : Reg) (s : State),
    (encode (mk gr)).head? = some (firstByte 9 gr.field.toNat sub) ∧
    statesOf (mk gr) = 3 ∧
    ∃ t, exec (mk gr) s = .next t ∧
      (∀ k, k < 8 → (t.reg gr).getLsbD k = bit (s.reg gr) k) ∧
      t.flagC = (s.reg gr).getLsbD out ∧
      t.flagS = (t.reg gr).getLsbD 7 ∧
      (t.flagZ = true ↔ t.reg gr = 0#8) ∧
      SameRegs [gr] s t ∧ SameMem [] s t ∧ SameRest s t ∧ t.pc = s.pc

/-- A jump with opcode `op` and selector `sel` runs on every state and in every form: `PC` becomes the
effective address when the condition holds and stays at the next instruction when not; nothing else
changes. -/
def JumpLaw (mk : XR → Byte → Instr) (op sel : Nat) (taken : State → Bool) : Prop :=
  ∀ (xr : XR) (d a : Byte) (s : State), s.ea xr d = some a →
    encode (mk xr d) = [firstByte op sel xr.field.toNat, d] ∧
    statesOf (mk xr d) = 3 ∧
    ∃ t, exec (mk xr d) s = .next t ∧
      t.pc = (if taken s then a else s.pc) ∧
      SameRegs [] s t ∧ SameFlags s t ∧ SameMem [] s t ∧ SameRest s t

/-- `IN GR, p` has opcode `C`, `GR` and `XR` = `00`, takes 4 states, and runs: the register gets `v`,
the SIO and the timer become `x` and `y`, nothing else changes. -/
def InAnswers (gr : Reg) (p v : Byte) (x : Sio) (y : Timer) (s : State) : Prop :=
  encode (.inp gr p) = [firstByte 12 gr.field.toNat 0, p] ∧
  statesOf (.inp gr p) = 4 ∧
  ∃ t, exec (.inp gr p) s = .next t ∧
    t.reg gr = v ∧ t.sio = x ∧ t.timer = y ∧
    t.console = s.console ∧ t.pio = s.pio ∧ t.ie = s.ie ∧ SameRun s t ∧ SameHost s t ∧
    SameRegs [gr] s t ∧ SameFlags s t ∧ SameMem [] s t ∧ t.pc = s.pc

/-- `OUT GR, p` has opcode `C`, `GR` and `XR` = `11`, takes 3 states, and runs: the peripherals become
`x`, `y`, `c`, `z`, nothing else changes. -/
def OutAnswers (gr : Reg) (p : Byte) (x : Sio) (y : Timer) (c : Console) (z : Pio) (s : State) :
    Prop :=
  encode (.out gr p) = [firstByte 12 gr.field.toNat 3, p] ∧
  statesOf (.out gr p) = 3 ∧
  ∃ t, exec (.out gr p) s = .next t ∧
    t.sio = x ∧ t.timer = y ∧ t.console = c ∧ t.pio = z ∧
    t.ie = s.ie ∧ SameRun s t ∧ SameHost s t ∧
    SameRegs [] s t ∧ SameFlags s t ∧ SameMem [] s t ∧ t.pc = s.pc

/-- What raising an error leaves (`40_execution_cycle.md` R135): `error` 1, `run` 0, everything else as
it was (the spec's own decision D3; log entry 18) but `PC`, of which nothing is said. -/
def InErrorFrom (s t : State) : Prop :=
  t.error = true ∧ t.run = false ∧ SameRegs [] s t ∧ SameFlags s t ∧ t.ie = s.ie ∧
    SameMem [] s t ∧ SameDevices s t ∧ t.harness = s.harness

/-- So many timer ticks (`60_exceptions.md` R331). -/
def ticks : Nat → Timer → Timer
  | 0, t => t
  | k + 1, t => ticks k t.tick

/-- The instructions that write none of `C`, `S`, `Z` (`10_state.md` R28). -/
def keepsFlags : Instr → Bool
  | .no | .ld _ _ _ | .st _ _ _ | .jmp _ _ | .jz _ _ | .jc _ _ | .jm _ _ | .call _ _
  | .jnz _ _ | .jnc _ _ | .jnm _ _ | .ret | .inp _ _ | .out _ _ | .push _ | .pop _
  | .ei | .di | .halt => true
  | _ => false

/-- The instructions that write `IE` (`10_state.md` R31). -/
def writesIe : Instr → Bool
  | .ei | .di | .reti => true
  | _ => false

/-- `IN` or `OUT` with a port number above `0x0F` (`45_io_ports.md` R233). -/
def portOutOfRange : Instr → Bool
  | .inp _ p | .out _ p => decide (16 ≤ p.toNat)
  | _ => false

end Sys2Proof.Statements

open Sys2Proof Sys2Proof.Machine Sys2Proof.Statements

/-! ### Encoding -/

/-- Decoding an encoded well-formed instruction gives it back, with every operand at every value, and
leaves the bytes after it. -/
def Obligations.DecodeInvertsEncode : Prop :=
  ∀ (i : Instr) (rest : List Byte), i.WellFormed → decode (encode i ++ rest) = .ok (i, rest)

/-- Bytes that decode are the encoding of the instruction they decode to, which is well-formed: each
legal byte has exactly one meaning. -/
def Obligations.EncodeInvertsDecode : Prop :=
  ∀ (bs rest : List Byte) (i : Instr), decode bs = .ok (i, rest) →
    i.WellFormed ∧ bs = encode i ++ rest

/-- The first byte alone decides legality, and the illegal ones are exactly the 70 that `30_encoding.md`
R97 lists (for `XR` = `11` on `ST`, the jumps and `CALL` this is the spec's own decision D2). -/
def Obligations.IllegalBytesAreTheListed : Prop :=
  ∀ (b d : Byte) (rest : List Byte),
    (∃ i r, decode (b :: d :: rest) = .ok (i, r)) ↔ b ∉ illegalBytes

/-- The opcode nibble decides the length (`30_encoding.md` R99, the spec's own decision D1). -/
def Obligations.LengthByOpcode : Prop :=
  ∀ (b d : Byte) (rest r : List Byte) (i : Instr), decode (b :: d :: rest) = .ok (i, r) →
    i.size = (if b.toNat / 16 ∈ [1, 2, 3, 4, 5, 6, 7, 8, 10, 11, 12] then 2 else 1) ∧
    r.length + i.size = rest.length + 2

/-- Words written out from the opcode table decode to their instructions. -/
def Obligations.SampleWordsDecode : Prop :=
  decode [0x13#8, 0x05#8] = .ok (.ld .g0 .imm 0x05#8, []) ∧
  decode [0x26#8, 0x30#8] = .ok (.st .g1 .g2 0x30#8, []) ∧
  decode [0x49#8, 0x30#8] = .ok (.sub .g2 .g1 0x30#8, []) ∧
  decode [0x9B#8] = .ok (.shrl .g2, []) ∧
  decode [0xB4#8, 0x04#8] = .ok (.jnz .direct 0x04#8, []) ∧
  decode [0xC7#8, 0x03#8] = .ok (.out .g1 0x03#8, []) ∧
  decode [0xDE#8] = .ok (.pop .sp, []) ∧
  decode [0xEF#8] = .ok (.reti, [])

/-! ### Load, store, arithmetic, logic, shifts -/

/-- The effective address and the source operand in every addressing mode. -/
def Obligations.OperandForms : Prop :=
  ∀ (s : State) (d : Byte),
    s.ea .direct d = some d ∧
    s.ea .g1 d = some (BitVec.ofNat 8 ((d.toNat + s.g1.toNat) % 256)) ∧
    s.ea .g2 d = some (BitVec.ofNat 8 ((d.toNat + s.g2.toNat) % 256)) ∧
    s.operand .imm d = d ∧
    (∀ xr a, s.ea xr d = some a → s.operand xr d = s.readMem a)

/-- `LD` loads the operand into the register, and changes nothing else. -/
def Obligations.LdLoadsOperand : Prop :=
  ∀ (gr : Reg) (xr : XR) (d : Byte) (s : State),
    encode (.ld gr xr d) = [firstByte 1 gr.field.toNat xr.field.toNat, d] ∧
    statesOf (.ld gr xr d) = 4 ∧
    ∃ t, exec (.ld gr xr d) s = .next t ∧
      t.reg gr = s.operand xr d ∧
      SameRegs [gr] s t ∧ SameFlags s t ∧ SameMem [] s t ∧ SameRest s t ∧ t.pc = s.pc

/-- `ST` stores the register at the effective address, unless ROM drops it, and changes nothing
else. -/
def Obligations.StStoresThroughGate : Prop :=
  ∀ (gr : Reg) (xr : XR) (d a : Byte) (s : State), s.ea xr d = some a →
    encode (.st gr xr d) = [firstByte 2 gr.field.toNat xr.field.toNat, d] ∧
    statesOf (.st gr xr d) = 3 ∧
    ∃ t, exec (.st gr xr d) s = .next t ∧
      t.readMem a = (if a.toNat < 0xE0 then s.reg gr else s.readMem a) ∧
      SameMem [a] s t ∧ SameRegs [] s t ∧ SameFlags s t ∧ SameRest s t ∧ t.pc = s.pc

/-- `ADD` writes the sum modulo 256, `C` the carry out of it. -/
def Obligations.AddGivesSumAndCarry : Prop :=
  AluLaw .add 3 true (fun a v => BitVec.ofNat 8 ((a.toNat + v.toNat) % 256))
    (fun a v => decide (255 < a.toNat + v.toNat))

/-- `SUB` writes the difference modulo 256, `C` the borrow. -/
def Obligations.SubGivesDifferenceAndBorrow : Prop :=
  AluLaw .sub 4 true (fun a v => BitVec.ofNat 8 ((a.toNat + 256 - v.toNat) % 256))
    (fun a v => decide (a.toNat < v.toNat))

/-- `CMP` sets the flags of `SUB` and writes no register. -/
def Obligations.CmpSetsFlagsOnly : Prop :=
  AluLaw .cmp 5 false (fun a v => BitVec.ofNat 8 ((a.toNat + 256 - v.toNat) % 256))
    (fun a v => decide (a.toNat < v.toNat))

/-- `AND`, `OR`, `XOR` write the bitwise result and clear `C`. -/
def Obligations.LogicClearsCarry : Prop :=
  AluLaw .and 6 true (fun a v => a &&& v) (fun _ _ => false) ∧
  AluLaw .or 7 true (fun a v => a ||| v) (fun _ _ => false) ∧
  AluLaw .xor 8 true (fun a v => a ^^^ v) (fun _ _ => false)

/-- `SHLA` and `SHLL` have one effect: every bit moves up, bit 0 becomes 0, `C` is the old bit 7. -/
def Obligations.LeftShifts : Prop :=
  ShiftLaw .shla 0 7 (fun a k => decide (k ≠ 0) && a.getLsbD (k - 1)) ∧
  ShiftLaw .shll 1 7 (fun a k => decide (k ≠ 0) && a.getLsbD (k - 1))

/-- `SHRA` keeps bit 7 and `SHRL` clears it; the other bits move down, `C` is the old bit 0. -/
def Obligations.RightShifts : Prop :=
  ShiftLaw .shra 2 0 (fun a k => if k = 7 then a.getLsbD 7 else a.getLsbD (k + 1)) ∧
  ShiftLaw .shrl 3 0 (fun a k => decide (k ≠ 7) && a.getLsbD (k + 1))

/-! ### Control transfer -/

/-- The seven jumps: each condition, each form, taken and not. -/
def Obligations.JumpsFollowTheirCondition : Prop :=
  JumpLaw .jmp 10 0 (fun _ => true) ∧
  JumpLaw .jz 10 1 (fun s => s.flagZ) ∧
  JumpLaw .jc 10 2 (fun s => s.flagC) ∧
  JumpLaw .jm 10 3 (fun s => s.flagS) ∧
  JumpLaw .jnz 11 1 (fun s => !s.flagZ) ∧
  JumpLaw .jnc 11 2 (fun s => !s.flagC) ∧
  JumpLaw .jnm 11 3 (fun s => !s.flagS)

/-- `CALL` pushes the address of the next instruction, unless ROM drops it, and jumps. -/
def Obligations.CallPushesReturnAddress : Prop :=
  ∀ (xr : XR) (d a : Byte) (s : State), s.ea xr d = some a →
    encode (.call xr d) = [firstByte 11 0 xr.field.toNat, d] ∧
    statesOf (.call xr d) = 4 ∧
    ∃ t, exec (.call xr d) s = .next t ∧
      t.pc = a ∧ t.sp = s.sp - 1#8 ∧
      t.readMem (s.sp - 1#8) =
        (if (s.sp - 1#8).toNat < 0xE0 then s.pc else s.readMem (s.sp - 1#8)) ∧
      SameMem [s.sp - 1#8] s t ∧ SameRegs [.sp] s t ∧ SameFlags s t ∧ SameRest s t

/-- `RET`, the byte `EC`, pops one byte into `PC` (its state count is the spec's own decision D6). -/
def Obligations.RetPopsPc : Prop :=
  ∀ s : State,
    (encode .ret).head? = some 0xEC#8 ∧
    statesOf .ret = 4 ∧
    ∃ t, exec .ret s = .next t ∧
      t.pc = s.readMem s.sp ∧ t.sp = s.sp + 1#8 ∧
      SameRegs [.sp] s t ∧ SameFlags s t ∧ SameMem [] s t ∧ SameRest s t

/-- A `RET` after a `CALL` whose push lands in RAM continues after the `CALL`, with `SP` as before. -/
def Obligations.RetAfterCallReturns : Prop :=
  ∀ (xr : XR) (d a : Byte) (s : State), s.ea xr d = some a → (s.sp - 1#8).toNat < 0xE0 →
    ∃ t u, exec (.call xr d) s = .next t ∧ exec .ret t = .next u ∧
      u.pc = s.pc ∧ SameRegs [] s u ∧ SameFlags s u ∧ SameMem [s.sp - 1#8] s u ∧ SameRest s u

/-! ### Stack -/

/-- `PUSH` decrements `SP` and stores the register there, unless ROM drops it; `PUSH SP` stores the
decremented `SP` (the spec's own decision D8). -/
def Obligations.PushStoresBelow : Prop :=
  ∀ (gr : Reg) (s : State),
    (encode (.push gr)).head? = some (firstByte 13 gr.field.toNat 0) ∧
    statesOf (.push gr) = 3 ∧
    ∃ t, exec (.push gr) s = .next t ∧
      t.sp = s.sp - 1#8 ∧
      t.readMem (s.sp - 1#8) =
        (if (s.sp - 1#8).toNat < 0xE0 then (if gr = .sp then s.sp - 1#8 else s.reg gr)
          else s.readMem (s.sp - 1#8)) ∧
      SameMem [s.sp - 1#8] s t ∧ SameRegs [.sp] s t ∧ SameFlags s t ∧ SameRest s t ∧ t.pc = s.pc

/-- `POP` loads the register from the top of the stack and increments `SP`; `POP SP` leaves the byte
read (the spec's own decision D8). -/
def Obligations.PopLoadsTop : Prop :=
  ∀ (gr : Reg) (s : State),
    (encode (.pop gr)).head? = some (firstByte 13 gr.field.toNat 2) ∧
    statesOf (.pop gr) = 4 ∧
    ∃ t, exec (.pop gr) s = .next t ∧
      t.reg gr = s.readMem s.sp ∧
      (gr ≠ .sp → t.sp = s.sp + 1#8) ∧
      SameRegs [gr, .sp] s t ∧ SameFlags s t ∧ SameMem [] s t ∧ SameRest s t ∧ t.pc = s.pc

/-- `PUSH` of one register and `POP` of another is a register-to-register move when the push lands in
RAM. -/
def Obligations.PushThenPopMoves : Prop :=
  ∀ (g h : Reg) (s : State), g ≠ .sp → h ≠ .sp → (s.sp - 1#8).toNat < 0xE0 →
    ∃ t u, exec (.push g) s = .next t ∧ exec (.pop h) t = .next u ∧
      u.reg h = s.reg g ∧ SameRegs [h] s u ∧ SameFlags s u ∧
      SameMem [s.sp - 1#8] s u ∧ SameRest s u ∧ u.pc = s.pc

/-! ### Ports -/

/-- `IN` from the input ports without a side effect, in 4 states. -/
def Obligations.InReadsPlainPorts : Prop :=
  ∀ (gr : Reg) (s : State),
    InAnswers gr 0x0#8 s.pio.dataSw s.sio s.timer s ∧
    InAnswers gr 0x1#8 s.pio.dataSw s.sio s.timer s ∧
    InAnswers gr 0x4#8 s.timer.counter s.sio s.timer s ∧
    InAnswers gr 0x6#8 0x00#8 s.sio s.timer s ∧
    InAnswers gr 0x7#8 s.pio.parIn s.sio s.timer s ∧
    InAnswers gr 0x8#8 s.pio.adc0 s.sio s.timer s ∧
    InAnswers gr 0x9#8 s.pio.adc1 s.sio s.timer s ∧
    InAnswers gr 0xA#8 s.pio.adc2 s.sio s.timer s ∧
    InAnswers gr 0xB#8 s.pio.adc3 s.sio s.timer s ∧
    InAnswers gr 0xC#8 0x00#8 s.sio s.timer s ∧
    InAnswers gr 0xD#8 0x00#8 s.sio s.timer s ∧
    InAnswers gr 0xE#8 0x00#8 s.sio s.timer s ∧
    InAnswers gr 0xF#8 0x00#8 s.sio s.timer s

/-- `IN` from the SIO and timer status ports, in 4 states: the receive data with its flag
cleared, the two status bytes, the elapsed latch cleared (unnamed bits 0 by the spec's own decision
D13, the read of an empty receiver by D14). -/
def Obligations.InReadsSioAndTimerPorts : Prop :=
  ∀ (gr : Reg) (s : State),
    InAnswers gr 0x2#8 s.sio.rxData { s.sio with rxFull := false } s.timer s ∧
    InAnswers gr 0x3#8
      (BitVec.ofNat 8 ((if s.sio.txEmpty then 128 else 0) + (if s.sio.rxFull then 64 else 0)))
      s.sio s.timer s ∧
    InAnswers gr 0x5#8 (if s.timer.elapsed then 0x80#8 else 0x00#8) s.sio
      { s.timer with elapsed := false } s

/-- `OUT`, in 3 states, to the output ports whose effect the source gives in full: buzzer,
speaker, SIO control, timer period, console enable, parallel-out, and the ignored ones. -/
def Obligations.OutWritesPlainPorts : Prop :=
  ∀ (gr : Reg) (s : State),
    OutAnswers gr 0x0#8 s.sio s.timer s.console
      { s.pio with buzzer := (s.reg gr).getLsbD 0 } s ∧
    OutAnswers gr 0x1#8 s.sio s.timer s.console
      { s.pio with speaker := (s.reg gr).getLsbD 0 } s ∧
    OutAnswers gr 0x3#8
      { s.sio with txIe := (s.reg gr).getLsbD 7, rxIe := (s.reg gr).getLsbD 6 }
      s.timer s.console s.pio s ∧
    OutAnswers gr 0x4#8 s.sio { s.timer with period := s.reg gr } s.console s.pio s ∧
    OutAnswers gr 0x6#8 s.sio s.timer { s.console with ie := (s.reg gr).getLsbD 0 } s.pio s ∧
    OutAnswers gr 0x7#8 s.sio s.timer s.console { s.pio with parOut := s.reg gr } s ∧
    (∀ p : Byte, p ∈ [0x8#8, 0x9#8, 0xA#8, 0xB#8, 0xD#8, 0xE#8, 0xF#8] →
      OutAnswers gr p s.sio s.timer s.console s.pio s)

/-- `OUT`, in 3 states, to the SIO data, timer control and PIO control ports (the overwrite of a busy
transmitter is the spec's own decision D14, what timer control leaves alone D11, the four bits of PIO
control D15). -/
def Obligations.OutWritesSioTimerAndPioControl : Prop :=
  ∀ (gr : Reg) (s : State),
    OutAnswers gr 0x2#8 { s.sio with txData := s.reg gr, txEmpty := false } s.timer s.console
      s.pio s ∧
    OutAnswers gr 0x5#8 s.sio
      { s.timer with
        ie := (s.reg gr).getLsbD 7
        enable := (s.reg gr).getLsbD 0
        elapsed := s.timer.elapsed && !(s.reg gr).getLsbD 0
        counter := if (s.reg gr).getLsbD 0 then 0x00#8 else s.timer.counter }
      s.console s.pio s ∧
    OutAnswers gr 0xC#8 s.sio s.timer s.console
      { s.pio with
        extEnable := (s.reg gr).getLsbD 7
        extOut := if (s.reg gr).getLsbD 7 then (s.reg gr).extractLsb' 0 4 else s.pio.extOut } s

/-- `IN` and `OUT` with a port number above `0x0F` raise the error and touch nothing (that everything
but `error`, `run` and `PC` is as before is the spec's own decision D3; log entry 18). -/
def Obligations.PortRangeRaisesError : Prop :=
  ∀ (gr : Reg) (p : Byte) (s : State), 0x10 ≤ p.toNat →
    (∃ t, exec (.inp gr p) s = .next t ∧ InErrorFrom s t) ∧
    (∃ t, exec (.out gr p) s = .next t ∧ InErrorFrom s t)

/-! ### System instructions -/

/-- `NO` changes nothing in 2 states. -/
def Obligations.NoDoesNothing : Prop :=
  encode .no = [0x00#8] ∧ statesOf .no = 2 ∧ ∀ s : State, exec .no s = .next s

/-- `EI`, the byte `E0`, sets and `DI`, the byte `E3`, clears `IE`, and nothing else changes (their state
counts are the spec's own decision D6). -/
def Obligations.EiSetsDiClearsIe : Prop :=
  (encode .ei).head? = some 0xE0#8 ∧ (encode .di).head? = some 0xE3#8 ∧
  statesOf .ei = 3 ∧ statesOf .di = 3 ∧
  ∀ s : State, exec .ei s = .next { s with ie := true } ∧ exec .di s = .next { s with ie := false }

/-- `RETI`, the byte `EF`, pops the flags byte, then `PC`, and restores `IE`, `C`, `S`, `Z` (bits 6 to 3
ignored by the spec's own decision D23, the state count D6). -/
def Obligations.RetiRestoresFrame : Prop :=
  ∀ s : State,
    (encode .reti).head? = some 0xEF#8 ∧
    statesOf .reti = 4 ∧
    ∃ t, exec .reti s = .next t ∧
      t.pc = s.readMem (s.sp + 1#8) ∧ t.sp = s.sp + 2#8 ∧
      t.ie = (s.readMem s.sp).getLsbD 7 ∧ t.flagC = (s.readMem s.sp).getLsbD 2 ∧
      t.flagS = (s.readMem s.sp).getLsbD 1 ∧ t.flagZ = (s.readMem s.sp).getLsbD 0 ∧
      SameRegs [.sp] s t ∧ SameMem [] s t ∧ SameRun s t ∧ SameDevices s t ∧ SameHost s t

/-- `HALT`, the byte `FF`, clears `run` and changes nothing else (its state count is the spec's own
decision D7). -/
def Obligations.HaltClearsRun : Prop :=
  (encode .halt).head? = some 0xFF#8 ∧ statesOf .halt = 0 ∧
  ∀ s : State, exec .halt s = .next { s with run := false }

/-! ### Whole-machine rules on the instructions -/

/-- `C`, `S`, `Z` are written by the arithmetic, logic and shift instructions and `RETI` only. -/
def Obligations.FlagsHaveTheirWritersOnly : Prop :=
  ∀ (i : Instr) (s t : State), keepsFlags i = true → exec i s = .next t → SameFlags s t

/-- Of the instructions only `EI`, `DI` and `RETI` write `IE`, and of the host's events only the reset;
in a step of the machine the one further writer is a dispatch, which takes place with `IE` set, through
one of the four vector cells, and clears it. -/
def Obligations.IeHasItsWritersOnly : Prop :=
  (∀ (i : Instr) (s t : State), writesIe i = false → exec i s = .next t → t.ie = s.ie) ∧
  (∀ (e : Event) (s t : State), e ≠ .reset → s.applyEvent e = .next t → t.ie = s.ie) ∧
  (∀ s t : State, step s = .next t →
    t.ie = s.ie ∨
    (∃ rest, s.HostMoves .reset rest) ∨
    (s.CpuMoves ∧ ∃ i rest,
      decode [s.readMem s.pc, s.readMem (s.pc + 1#8)] = .ok (i, rest) ∧ writesIe i = true) ∨
    (s.CpuMoves ∧ t.ie = false ∧ ∃ (u : State) (vec : Byte), u.ie = true ∧
      vec ∈ [0xDC#8, 0xDD#8, 0xDE#8, 0xDF#8] ∧ t = u.dispatch vec))

/-- Of the well-formed instructions only `IN` and `OUT` can raise an error, and exactly when their port
number is above `0x0F`; without one only `HALT` changes `run`. -/
def Obligations.OnlyPortRangeRaisesError : Prop :=
  ∀ (i : Instr) (s t : State), i.WellFormed → s.error = false → exec i s = .next t →
    (t.error = true ↔ portOutOfRange i = true) ∧
    (i ≠ .halt → portOutOfRange i = false → t.run = s.run)

/-- No instruction changes what only the host writes: the data switch, the parallel input, the ADC
channels, the receive data, the console request, the host's own state. -/
def Obligations.InstructionsLeaveHostInputs : Prop :=
  ∀ (i : Instr) (s t : State), exec i s = .next t →
    t.pio.dataSw = s.pio.dataSw ∧ t.pio.parIn = s.pio.parIn ∧ t.pio.adc0 = s.pio.adc0 ∧
    t.pio.adc1 = s.pio.adc1 ∧ t.pio.adc2 = s.pio.adc2 ∧ t.pio.adc3 = s.pio.adc3 ∧
    t.sio.rxData = s.sio.rxData ∧ t.console.pending = s.console.pending ∧ t.harness = s.harness

/-! ### The step -/

/-- When the CPU moves and the bytes at `PC` decode, the step is the instruction's meaning with `PC`
past its bytes, and then, unless it raised an error, the timer, the account of states, and with `run`
still 1 the arbiter (the place of the arbiter is the spec's own decision D4). -/
def Obligations.StepRunsDecodedInstruction : Prop :=
  ∀ (s t : State) (i : Instr) (rest : List Byte), s.CpuMoves →
    decode [s.readMem s.pc, s.readMem (s.pc + 1#8)] = .ok (i, rest) → i.WellFormed →
    exec i { s with pc := s.pc + BitVec.ofNat 8 i.size } = .next t →
    step s = .next
      (if t.error then t
        else
          let u := (t.timerAdvance (statesOf i)).accountStates (statesOf i)
          if u.run then u.arbitrate else u)

/-- An illegal byte at `PC` raises the error, whatever the byte after it, and changes nothing else
(the spec's own decisions D2 and D3). -/
def Obligations.IllegalByteRaisesError : Prop :=
  ∀ s : State, s.CpuMoves → s.readMem s.pc ∈ illegalBytes →
    ∃ t, step s = .next t ∧ InErrorFrom s t

/-- From the error state no step is defined (the spec's own decision D25; log entry 2). -/
def Obligations.ErrorStateHasNoStep : Prop :=
  ∀ s : State, s.error = true → step s = .fault .errorState

/-- A stopped CPU without a host action changes nothing (the spec's own decision D4; log entry 3). -/
def Obligations.StoppedMachineKeepsItsState : Prop :=
  ∀ s : State, s.Stopped → s.harness.wait = none → s.harness.events = [] → step s = .next s

/-! ### Timer and interrupts -/

/-- The accumulator, the tick, and what the enable gates (the spec's own decisions D9 and D10). -/
def Obligations.TimerAdvanceRule : Prop :=
  ∀ (n : Nat) (t : Timer),
    (t.acc + n < 32768 → Timer.advance n t = { t with acc := t.acc + n }) ∧
    (32768 ≤ t.acc + n → t.enable = false → Timer.advance n t = { t with acc := 0 }) ∧
    (32768 ≤ t.acc + n → t.enable = true → t.counter ≠ t.period →
      Timer.advance n t = { t with acc := 0, counter := t.counter + 1#8 }) ∧
    (32768 ≤ t.acc + n → t.enable = true → t.counter = t.period →
      Timer.advance n t =
        { t with acc := 0, counter := 0x00#8, elapsed := true, pending := t.pending || t.ie })

/-- A period of `P` is `P + 1` ticks: from counter 0 the counter takes the values 0 to `P`, and tick
`P + 1` completes the period (the spec's own decision D10). -/
def Obligations.PeriodIsOneMoreTick : Prop :=
  ∀ t : Timer, t.counter = 0x00#8 →
    (∀ k, k ≤ t.period.toNat →
      (ticks k t).counter = BitVec.ofNat 8 k ∧ (ticks k t).elapsed = t.elapsed ∧
      (ticks k t).pending = t.pending) ∧
    (ticks (t.period.toNat + 1) t).counter = 0x00#8 ∧
    (ticks (t.period.toNat + 1) t).elapsed = true ∧
    (ticks (t.period.toNat + 1) t).pending = (t.pending || t.ie)

/-- With `IE` set the first requesting source in the fixed order is dispatched, a latched request
being cleared; with none, or with `IE` clear, nothing happens. -/
def Obligations.ArbitrationOrder : Prop :=
  ∀ s : State,
    (s.ie = false → s.arbitrate = s) ∧
    (s.ie = true → s.timer.pending = true →
      s.arbitrate = State.dispatch { s with timer := { s.timer with pending := false } } 0xDC#8) ∧
    (s.ie = true → s.timer.pending = false → s.sio.rxFull = true → s.sio.rxIe = true →
      s.arbitrate = s.dispatch 0xDD#8) ∧
    (s.ie = true → s.timer.pending = false → (s.sio.rxFull = false ∨ s.sio.rxIe = false) →
      s.sio.txEmpty = true → s.sio.txIe = true → s.arbitrate = s.dispatch 0xDE#8) ∧
    (s.ie = true → s.timer.pending = false → (s.sio.rxFull = false ∨ s.sio.rxIe = false) →
      (s.sio.txEmpty = false ∨ s.sio.txIe = false) → s.console.pending = true →
      s.arbitrate =
        State.dispatch { s with console := { s.console with pending := false } } 0xDF#8) ∧
    (s.ie = true → s.timer.pending = false → (s.sio.rxFull = false ∨ s.sio.rxIe = false) →
      (s.sio.txEmpty = false ∨ s.sio.txIe = false) → s.console.pending = false →
      s.arbitrate = s)

/-- What a dispatch saves and where it goes: `PC` at `SP - 1` and the flags byte at `SP - 2`, each
unless ROM drops it, `PC` from the vector cell as it reads after the pushes, `IE` cleared, nothing
else changed, no state consumed (the last is the spec's own decision D5). -/
def Obligations.DispatchSavesFrame : Prop :=
  ∀ (s : State) (vec : Byte),
    let t := s.dispatch vec
    let f : Byte := BitVec.ofNat 8
      ((if s.ie then 128 else 0) + (if s.flagC then 4 else 0) + (if s.flagS then 2 else 0) +
        (if s.flagZ then 1 else 0))
    t.sp = s.sp - 2#8 ∧
    t.readMem (s.sp - 1#8) =
      (if (s.sp - 1#8).toNat < 0xE0 then s.pc else s.readMem (s.sp - 1#8)) ∧
    t.readMem (s.sp - 2#8) =
      (if (s.sp - 2#8).toNat < 0xE0 then f else s.readMem (s.sp - 2#8)) ∧
    SameMem [s.sp - 1#8, s.sp - 2#8] s t ∧
    t.pc = t.readMem vec ∧ t.ie = false ∧
    SameRegs [.sp] s t ∧ SameFlags s t ∧ SameRun s t ∧ SameDevices s t ∧ SameHost s t

/-- `RETI` exactly inverts a dispatch whose frame lands in RAM: `IE`, `C`, `S`, `Z`, `PC` and every
register are as before it. -/
def Obligations.RetiInvertsDispatch : Prop :=
  ∀ (s : State) (vec : Byte), s.ie = true →
    (s.sp - 1#8).toNat < 0xE0 → (s.sp - 2#8).toNat < 0xE0 →
    ∃ t, exec .reti (s.dispatch vec) = .next t ∧
      t.pc = s.pc ∧ t.ie = true ∧ SameFlags s t ∧ SameRegs [] s t ∧
      SameMem [s.sp - 1#8, s.sp - 2#8] s t ∧ SameRun s t ∧ SameDevices s t ∧ SameHost s t

/-- A latched request is cleared by its own dispatch and by the reset event only, in any step of the
machine (that it survives a later clear of its enable is the spec's own decisions D11 and D12). -/
def Obligations.LatchedRequestsPersist : Prop :=
  ∀ s t : State, step s = .next t →
    (s.harness.wait = none ∧ ∃ rest, s.harness.events = .reset :: rest) ∨
    ((s.timer.pending = true → t.timer.pending = true ∨
      ∃ u : State, u.ie = true ∧ u.timer.pending = true ∧
        t = State.dispatch { u with timer := { u.timer with pending := false } } 0xDC#8) ∧
     (s.console.pending = true → t.console.pending = true ∨
      ∃ u : State, u.ie = true ∧ u.console.pending = true ∧
        t = State.dispatch { u with console := { u.console with pending := false } } 0xDF#8))

/-! ### The host -/

/-- The host sets a register, `PC` or a flag, and nothing else changes (the low 8 bits of the value are
the spec's own decision D26). -/
def Obligations.HostSetsRegistersAndFlags : Prop :=
  ∀ (s : State) (rest : List Event) (v : Int) (b : Bool),
    (∀ g, s.HostMoves (.setReg (.gen g) v) rest → ∃ t, step s = .next t ∧
      t.reg g = BitVec.ofInt 8 v ∧ SameRegs [g] s t ∧ SameFlags s t ∧ SameMem [] s t ∧
      t.pc = s.pc ∧ SameRest (s.withEvents rest) t) ∧
    (s.HostMoves (.setReg .pc v) rest →
      step s = .next { s.withEvents rest with pc := BitVec.ofInt 8 v }) ∧
    (s.HostMoves (.setFlag .c b) rest → step s = .next { s.withEvents rest with flagC := b }) ∧
    (s.HostMoves (.setFlag .s b) rest → step s = .next { s.withEvents rest with flagS := b }) ∧
    (s.HostMoves (.setFlag .z b) rest → step s = .next { s.withEvents rest with flagZ := b })

/-- The host's set-memory event goes through the ROM gate (the spec's own decision D19). -/
def Obligations.HostStoresThroughGate : Prop :=
  ∀ (s : State) (rest : List Event) (a v : Int), s.HostMoves (.setMem a v) rest →
    ∃ t, step s = .next t ∧ t = { s.withEvents rest with mem := t.mem } ∧
      t.readMem (BitVec.ofInt 8 a) =
        (if (BitVec.ofInt 8 a).toNat < 0xE0 then BitVec.ofInt 8 v
          else s.readMem (BitVec.ofInt 8 a)) ∧
      SameMem [BitVec.ofInt 8 a] s t

/-- The host sets the data switch, an ADC channel, or the parallel input with all four channels (231
and the payload byte are the spec's own decision D28). -/
def Obligations.HostSetsInputs : Prop :=
  ∀ (s : State) (rest : List Event) (v : Int) (b : Byte),
    (s.HostMoves (.dataSwitch v) rest →
      step s = .next { s.withEvents rest with pio := { s.pio with dataSw := BitVec.ofInt 8 v } }) ∧
    (s.HostMoves (.analogIn .ch0 b) rest →
      step s = .next { s.withEvents rest with pio := { s.pio with adc0 := b } }) ∧
    (s.HostMoves (.analogIn .ch1 b) rest →
      step s = .next { s.withEvents rest with pio := { s.pio with adc1 := b } }) ∧
    (s.HostMoves (.analogIn .ch2 b) rest →
      step s = .next { s.withEvents rest with pio := { s.pio with adc2 := b } }) ∧
    (s.HostMoves (.analogIn .ch3 b) rest →
      step s = .next { s.withEvents rest with pio := { s.pio with adc3 := b } }) ∧
    (s.HostMoves (.parallelIn v) rest →
      step s = .next { s.withEvents rest with pio := { s.pio with
        parIn := BitVec.ofInt 8 v
        adc0 := if (BitVec.ofInt 8 v).getLsbD 0 then 231#8 else 0#8
        adc1 := if (BitVec.ofInt 8 v).getLsbD 1 then 231#8 else 0#8
        adc2 := if (BitVec.ofInt 8 v).getLsbD 2 then 231#8 else 0#8
        adc3 := if (BitVec.ofInt 8 v).getLsbD 3 then 231#8 else 0#8 } })

/-- The console request is latched exactly when its enable is set at that moment, and a write event
while the CPU is stopped is refused (the spec's own decisions D12 and D29). -/
def Obligations.ConsoleRequestNeedsItsEnable : Prop :=
  ∀ (s : State) (rest : List Event), s.HostMoves .write rest →
    (s.run = true → s.console.ie = true →
      step s = .next { s.withEvents rest with console := { s.console with pending := true } }) ∧
    (s.run = true → s.console.ie = false → step s = .next (s.withEvents rest)) ∧
    (s.run = false → step s = .refused .writeWhileStopped)

/-- Run sets and stop clears the run flag, and neither changes anything else. -/
def Obligations.RunAndStopSetTheFlag : Prop :=
  ∀ (s : State) (rest : List Event),
    (s.HostMoves .run rest → step s = .next { s.withEvents rest with run := true }) ∧
    (s.HostMoves .stop rest → step s = .next { s.withEvents rest with run := false })

/-- The reset event: every register and flag 0, every peripheral 0 but `tx_empty`, memory and the
host's state kept (the spec's own decisions D16, D17, D18). -/
def Obligations.ResetEventKeepsMemory : Prop :=
  ∀ (s : State) (rest : List Event), s.HostMoves .reset rest →
    ∃ t, step s = .next t ∧
      t.g0 = 0#8 ∧ t.g1 = 0#8 ∧ t.g2 = 0#8 ∧ t.sp = 0#8 ∧ t.pc = 0#8 ∧
      t.flagC = false ∧ t.flagS = false ∧ t.flagZ = false ∧
      t.ie = false ∧ t.run = false ∧ t.error = false ∧
      t.timer = { period := 0#8, counter := 0#8, enable := false, elapsed := false, ie := false,
                  acc := 0, pending := false } ∧
      t.sio = { rxData := 0#8, rxFull := false, txData := 0#8, txEmpty := true, txIe := false,
                rxIe := false } ∧
      t.console = { ie := false, pending := false } ∧
      t.pio = { dataSw := 0#8, parIn := 0#8, parOut := 0#8, extOut := 0#4, extEnable := false,
                adc0 := 0#8, adc1 := 0#8, adc2 := 0#8, adc3 := 0#8, buzzer := false,
                speaker := false } ∧
      SameMem [] s t ∧ t.harness = (s.withEvents rest).harness

/-- Serial-in appends the bytes to the host's queue and touches nothing else; a print event and a
printer mode change go to the printer only (that the ext-parallel sample ignores its enable is the
spec's own decision D15). -/
def Obligations.SerialAndPrintTouchHostOnly : Prop :=
  ∀ (s : State) (rest : List Event),
    (∀ vs, s.HostMoves (.serialIn vs) rest → step s = .next { s with harness :=
      { s.harness with events := rest, rxQueue := s.harness.rxQueue ++ vs.map (BitVec.ofInt 8) } }) ∧
    (∀ w, s.HostMoves (.print w) rest → step s = .next { s with harness :=
      { s.harness with
        events := rest
        printer := s.harness.printer ++ [.byte .print (match w with
          | .mem a => s.readMem (BitVec.ofInt 8 a)
          | .reg (.gen r) => s.reg r
          | .reg .pc => s.pc
          | .flag .c => if s.flagC then 1#8 else 0#8
          | .flag .s => if s.flagS then 1#8 else 0#8
          | .flag .z => if s.flagZ then 1#8 else 0#8
          | .buzzer => if s.pio.buzzer then 1#8 else 0#8
          | .speaker => if s.pio.speaker then 1#8 else 0#8
          | .run => if s.run then 1#8 else 0#8
          | .parallel => s.pio.parOut
          | .extParallel => BitVec.ofNat 8 s.pio.extOut.toNat)] } }) ∧
    (∀ c m, s.HostMoves (.setMode c m) rest → step s = .next { s with harness :=
      { s.harness with events := rest, printer := s.harness.printer ++ [.mode c m] } }) ∧
    (s.HostMoves .endScript rest → step s = .next { s with harness :=
      { s.harness with events := [] } })

/-- A wait event begins a quantum exactly when `run` is 1 and its condition holds; the milliseconds and
seconds are converted to states (the tests before the quantum and the rounding are the spec's own
decision D21). -/
def Obligations.WaitEventsOpenAQuantum : Prop :=
  ∀ (s : State) (rest : List Event) (n : Nat),
    (s.HostMoves .waitStop rest → step s = .next { s with harness :=
      { s.harness with
        events := rest
        wait := if s.run then some { kind := .stop, acc := 0 } else none } }) ∧
    (s.HostMoves .waitSerial rest → step s = .next { s with harness :=
      { s.harness with
        events := rest
        wait := if s.run = true ∧ (s.sio.rxFull = true ∨ s.harness.rxQueue ≠ [])
          then some { kind := .serial, acc := 0 } else none } }) ∧
    (∀ e m, ((e = .waitStates n ∧ m = n) ∨ (e = .waitMs n ∧ m = n * 2457600 / 1000) ∨
        (e = .waitSec n ∧ m = n * 2457600)) →
      s.HostMoves e rest → step s = .next { s with harness :=
        { s.harness with
          events := rest
          wait := if s.run = true ∧ 0 < m
            then some { kind := .states m 0, acc := 0 } else none } })

/-- The service of the serial line: at most one byte each way, the transmitter first. -/
def Obligations.ServiceMovesOneByteEachWay : Prop :=
  ∀ s : State,
    let t := s.service
    t.sio.txEmpty = true ∧ t.sio.txData = s.sio.txData ∧
    t.sio.txIe = s.sio.txIe ∧ t.sio.rxIe = s.sio.rxIe ∧
    t.harness.printer =
      (if s.sio.txEmpty then s.harness.printer
        else s.harness.printer ++ [.byte .serial s.sio.txData]) ∧
    (∀ b q, s.sio.rxFull = false → s.harness.rxQueue = b :: q →
      t.sio.rxData = b ∧ t.sio.rxFull = true ∧ t.harness.rxQueue = q) ∧
    ((s.sio.rxFull = true ∨ s.harness.rxQueue = []) →
      t.sio.rxData = s.sio.rxData ∧ t.sio.rxFull = s.sio.rxFull ∧
      t.harness.rxQueue = s.harness.rxQueue) ∧
    t = { s with sio := t.sio, harness := t.harness } ∧
    t.harness.events = s.harness.events ∧ t.harness.wait = s.harness.wait

/-- Inside a quantum an instruction that raises no error adds its states to the quantum's count, and
the CPU step changes nothing else of the host's state. -/
def Obligations.QuantumCountsStates : Prop :=
  ∀ (s t : State) (w : Wait) (i : Instr) (rest : List Byte), s.CpuMoves → s.harness.wait = some w →
    decode [s.readMem s.pc, s.readMem (s.pc + 1#8)] = .ok (i, rest) →
    exec i { s with pc := s.pc + BitVec.ofNat 8 i.size } = .next t → t.error = false →
    ∃ u, step s = .next u ∧
      u.harness = { s.harness with wait := some { w with acc := w.acc + statesOf i } }

/-- A full quantum, or one that `run` = 0 cut short, ends with one service; then the loop's condition is
tested, with the states counted, and a new quantum begins from 0 or the wait is over (the spec's own
decisions D20 and D21). -/
def Obligations.QuantumEndsWithService : Prop :=
  ∀ (s : State) (w : Wait), s.error = false → s.harness.wait = some w →
    (s.run = false ∨ 32 ≤ w.acc) →
    ∃ t, step s = .next t ∧
      t = { s.service with harness := { s.service.harness with wait := t.harness.wait } } ∧
      (w.kind = .stop →
        t.harness.wait = if s.run then some { kind := .stop, acc := 0 } else none) ∧
      (w.kind = .serial →
        t.harness.wait =
          if s.run = true ∧ (s.service.sio.rxFull = true ∨ s.service.harness.rxQueue ≠ [])
          then some { kind := .serial, acc := 0 } else none) ∧
      (∀ n total, w.kind = .states n total →
        t.harness.wait =
          if s.run = true ∧ total + w.acc < n
          then some { kind := .states n (total + w.acc), acc := 0 } else none)

/-- The image file: a start byte, a size byte, and at least that many bytes. Loading it writes the first
`size` of them from `start` on, modulo 256: each byte that falls below ROM reads back, and every other
cell, `PC`, every register and all else are as before; a shorter file gives no state. `boot` is the load
into the reset state, with the script to consume. Of the bytes alone: at most 256 of them read back from
any address on (the ROM gate and the wrap are the spec's own decisions D19 and D27; that bytes after the
image play no part is the model's choice, log entry 33). -/
def Obligations.LoadedImageReadsBack : Prop :=
  (∀ (s : State) (a : Byte) (bs : List Byte), bs.length ≤ 256 →
    (∀ k b, bs[k]? = some b → (a + BitVec.ofNat 8 k).toNat < 0xE0 →
      (s.loadBytes a bs).readMem (a + BitVec.ofNat 8 k) = b) ∧
    (∀ x : Byte, (0xE0 ≤ x.toNat ∨ ∀ k, k < bs.length → x ≠ a + BitVec.ofNat 8 k) →
      (s.loadBytes a bs).readMem x = s.readMem x)) ∧
  (∀ (s : State) (start size : Byte) (body : List Byte), size.toNat ≤ body.length →
    ∃ t, s.loadImage (start :: size :: body) = some t ∧ t = { s with mem := t.mem } ∧
      (∀ k b, k < size.toNat → body[k]? = some b → (start + BitVec.ofNat 8 k).toNat < 0xE0 →
        t.readMem (start + BitVec.ofNat 8 k) = b) ∧
      (∀ x : Byte, (0xE0 ≤ x.toNat ∨ ∀ k, k < size.toNat → x ≠ start + BitVec.ofNat 8 k) →
        t.readMem x = s.readMem x)) ∧
  (∀ (s : State) (start size : Byte) (body : List Byte), body.length < size.toNat →
    s.loadImage (start :: size :: body) = none) ∧
  (∀ (s : State) (b : Byte), s.loadImage [] = none ∧ s.loadImage [b] = none) ∧
  (∀ (image : List Byte) (script : List Event),
    (State.reset.loadImage image = none → boot image script = none) ∧
    (∀ t, State.reset.loadImage image = some t →
      boot image script = some { t with
        harness := { events := script, wait := none, rxQueue := [], printer := [] } }))

/-! ### Invariants and reset -/

/-- No step of the machine, the CPU's or the host's, changes a byte of ROM. -/
def Obligations.NoStepChangesRom : Prop :=
  ∀ s t : State, step s = .next t → ∀ a : Byte, 0xE0 ≤ a.toNat → t.readMem a = s.readMem a

/-- Every step keeps the invariant: memory in its canonical form, ROM the IPL, the accumulator below a
tick, no run flag in the error state, a quantum of at most 35 states. -/
def Obligations.StepKeepsInvariant : Prop :=
  ∀ s t : State, s.Inv → step s = .next t → t.Inv

/-- The invariant holds after reset. -/
def Obligations.ResetHasInvariant : Prop := State.reset.Inv

/-- The reset state: the ROM reads as the IPL bytes (the source's), the rest of memory as 0, every
register and flag 0, every peripheral 0 but `tx_empty` (the spec's own decisions D16, D17, D18; log
entries 4 to 7). -/
def Obligations.ResetStateValues : Prop :=
  (∀ k : Nat, k < 32 →
    State.reset.readMem (BitVec.ofNat 8 (0xE0 + k)) =
      [0x1F#8, 0xDC#8, 0xB0#8, 0xF6#8, 0xD0#8, 0xD6#8, 0xB0#8, 0xF6#8, 0xD0#8, 0xDA#8, 0xA4#8,
        0xFF#8, 0xB0#8, 0xF6#8, 0x21#8, 0x00#8, 0x37#8, 0x01#8, 0x4B#8, 0x01#8, 0xA0#8, 0xEA#8,
        0xC0#8, 0x03#8, 0x63#8, 0x40#8, 0xA4#8, 0xF6#8, 0xC0#8, 0x02#8, 0xEC#8,
        0xFF#8].getD k 0#8) ∧
  (∀ a : Byte, a.toNat < 0xE0 → State.reset.readMem a = 0#8) ∧
  (∀ r : Reg, State.reset.reg r = 0#8) ∧ State.reset.pc = 0#8 ∧
  State.reset.flagC = false ∧ State.reset.flagS = false ∧ State.reset.flagZ = false ∧
  State.reset.ie = false ∧ State.reset.run = false ∧ State.reset.error = false ∧
  State.reset.timer = { period := 0#8, counter := 0#8, enable := false, elapsed := false,
                        ie := false, acc := 0, pending := false } ∧
  State.reset.sio = { rxData := 0#8, rxFull := false, txData := 0#8, txEmpty := true, txIe := false,
                      rxIe := false } ∧
  State.reset.console = { ie := false, pending := false } ∧
  State.reset.pio = { dataSw := 0#8, parIn := 0#8, parOut := 0#8, extOut := 0#4, extEnable := false,
                      adc0 := 0#8, adc1 := 0#8, adc2 := 0#8, adc3 := 0#8, buzzer := false,
                      speaker := false }
end

