-- ==== Sys2Proof/Laws/State.lean ====
section
/-! SUPPORT. One lemma per field per update, so that no later proof unfolds a record update. -/

namespace Sys2Proof.Machine

/-! ### The registers by name -/

@[simp] theorem State.reg_g0 (s : State) : s.reg .g0 = s.g0 := rfl
@[simp] theorem State.reg_g1 (s : State) : s.reg .g1 = s.g1 := rfl
@[simp] theorem State.reg_g2 (s : State) : s.reg .g2 = s.g2 := rfl
@[simp] theorem State.reg_sp (s : State) : s.reg .sp = s.sp := rfl

/-! ### setReg -/

@[simp] theorem State.reg_setReg (s : State) (r : Reg) (v : Byte) (q : Reg) :
    (s.setReg r v).reg q = if q = r then v else s.reg q := by cases r <;> cases q <;> rfl
@[simp] theorem State.g0_setReg (s : State) (r : Reg) (v : Byte) :
    (s.setReg r v).g0 = if r = .g0 then v else s.g0 := by cases r <;> rfl
@[simp] theorem State.g1_setReg (s : State) (r : Reg) (v : Byte) :
    (s.setReg r v).g1 = if r = .g1 then v else s.g1 := by cases r <;> rfl
@[simp] theorem State.g2_setReg (s : State) (r : Reg) (v : Byte) :
    (s.setReg r v).g2 = if r = .g2 then v else s.g2 := by cases r <;> rfl
@[simp] theorem State.sp_setReg (s : State) (r : Reg) (v : Byte) :
    (s.setReg r v).sp = if r = .sp then v else s.sp := by cases r <;> rfl
@[simp] theorem State.pc_setReg (s : State) (r : Reg) (v : Byte) :
    (s.setReg r v).pc = s.pc := by cases r <;> rfl
@[simp] theorem State.flagC_setReg (s : State) (r : Reg) (v : Byte) :
    (s.setReg r v).flagC = s.flagC := by cases r <;> rfl
@[simp] theorem State.flagS_setReg (s : State) (r : Reg) (v : Byte) :
    (s.setReg r v).flagS = s.flagS := by cases r <;> rfl
@[simp] theorem State.flagZ_setReg (s : State) (r : Reg) (v : Byte) :
    (s.setReg r v).flagZ = s.flagZ := by cases r <;> rfl
@[simp] theorem State.ie_setReg (s : State) (r : Reg) (v : Byte) :
    (s.setReg r v).ie = s.ie := by cases r <;> rfl
@[simp] theorem State.run_setReg (s : State) (r : Reg) (v : Byte) :
    (s.setReg r v).run = s.run := by cases r <;> rfl
@[simp] theorem State.error_setReg (s : State) (r : Reg) (v : Byte) :
    (s.setReg r v).error = s.error := by cases r <;> rfl
@[simp] theorem State.mem_setReg (s : State) (r : Reg) (v : Byte) :
    (s.setReg r v).mem = s.mem := by cases r <;> rfl
@[simp] theorem State.timer_setReg (s : State) (r : Reg) (v : Byte) :
    (s.setReg r v).timer = s.timer := by cases r <;> rfl
@[simp] theorem State.sio_setReg (s : State) (r : Reg) (v : Byte) :
    (s.setReg r v).sio = s.sio := by cases r <;> rfl
@[simp] theorem State.console_setReg (s : State) (r : Reg) (v : Byte) :
    (s.setReg r v).console = s.console := by cases r <;> rfl
@[simp] theorem State.pio_setReg (s : State) (r : Reg) (v : Byte) :
    (s.setReg r v).pio = s.pio := by cases r <;> rfl
@[simp] theorem State.harness_setReg (s : State) (r : Reg) (v : Byte) :
    (s.setReg r v).harness = s.harness := by cases r <;> rfl
@[simp] theorem State.freeCount_setReg (s : State) (r : Reg) (v : Byte) :
    (s.setReg r v).freeCount = s.freeCount := by cases r <;> rfl
@[simp] theorem State.readMem_setReg (s : State) (r : Reg) (v : Byte) (k : Byte) :
    (s.setReg r v).readMem k = s.readMem k := by cases r <;> rfl

/-! ### setPc -/

@[simp] theorem State.reg_setPc (s : State) (v : Byte) (q : Reg) :
    (s.setPc v).reg q = s.reg q := by cases q <;> rfl
@[simp] theorem State.g0_setPc (s : State) (v : Byte) :
    (s.setPc v).g0 = s.g0 := rfl
@[simp] theorem State.g1_setPc (s : State) (v : Byte) :
    (s.setPc v).g1 = s.g1 := rfl
@[simp] theorem State.g2_setPc (s : State) (v : Byte) :
    (s.setPc v).g2 = s.g2 := rfl
@[simp] theorem State.sp_setPc (s : State) (v : Byte) :
    (s.setPc v).sp = s.sp := rfl
@[simp] theorem State.pc_setPc (s : State) (v : Byte) :
    (s.setPc v).pc = v := rfl
@[simp] theorem State.flagC_setPc (s : State) (v : Byte) :
    (s.setPc v).flagC = s.flagC := rfl
@[simp] theorem State.flagS_setPc (s : State) (v : Byte) :
    (s.setPc v).flagS = s.flagS := rfl
@[simp] theorem State.flagZ_setPc (s : State) (v : Byte) :
    (s.setPc v).flagZ = s.flagZ := rfl
@[simp] theorem State.ie_setPc (s : State) (v : Byte) :
    (s.setPc v).ie = s.ie := rfl
@[simp] theorem State.run_setPc (s : State) (v : Byte) :
    (s.setPc v).run = s.run := rfl
@[simp] theorem State.error_setPc (s : State) (v : Byte) :
    (s.setPc v).error = s.error := rfl
@[simp] theorem State.mem_setPc (s : State) (v : Byte) :
    (s.setPc v).mem = s.mem := rfl
@[simp] theorem State.timer_setPc (s : State) (v : Byte) :
    (s.setPc v).timer = s.timer := rfl
@[simp] theorem State.sio_setPc (s : State) (v : Byte) :
    (s.setPc v).sio = s.sio := rfl
@[simp] theorem State.console_setPc (s : State) (v : Byte) :
    (s.setPc v).console = s.console := rfl
@[simp] theorem State.pio_setPc (s : State) (v : Byte) :
    (s.setPc v).pio = s.pio := rfl
@[simp] theorem State.harness_setPc (s : State) (v : Byte) :
    (s.setPc v).harness = s.harness := rfl
@[simp] theorem State.freeCount_setPc (s : State) (v : Byte) :
    (s.setPc v).freeCount = s.freeCount := rfl
@[simp] theorem State.readMem_setPc (s : State) (v : Byte) (k : Byte) :
    (s.setPc v).readMem k = s.readMem k := rfl

/-! ### setIe -/

@[simp] theorem State.reg_setIe (s : State) (b : Bool) (q : Reg) :
    (s.setIe b).reg q = s.reg q := by cases q <;> rfl
@[simp] theorem State.g0_setIe (s : State) (b : Bool) :
    (s.setIe b).g0 = s.g0 := rfl
@[simp] theorem State.g1_setIe (s : State) (b : Bool) :
    (s.setIe b).g1 = s.g1 := rfl
@[simp] theorem State.g2_setIe (s : State) (b : Bool) :
    (s.setIe b).g2 = s.g2 := rfl
@[simp] theorem State.sp_setIe (s : State) (b : Bool) :
    (s.setIe b).sp = s.sp := rfl
@[simp] theorem State.pc_setIe (s : State) (b : Bool) :
    (s.setIe b).pc = s.pc := rfl
@[simp] theorem State.flagC_setIe (s : State) (b : Bool) :
    (s.setIe b).flagC = s.flagC := rfl
@[simp] theorem State.flagS_setIe (s : State) (b : Bool) :
    (s.setIe b).flagS = s.flagS := rfl
@[simp] theorem State.flagZ_setIe (s : State) (b : Bool) :
    (s.setIe b).flagZ = s.flagZ := rfl
@[simp] theorem State.ie_setIe (s : State) (b : Bool) :
    (s.setIe b).ie = b := rfl
@[simp] theorem State.run_setIe (s : State) (b : Bool) :
    (s.setIe b).run = s.run := rfl
@[simp] theorem State.error_setIe (s : State) (b : Bool) :
    (s.setIe b).error = s.error := rfl
@[simp] theorem State.mem_setIe (s : State) (b : Bool) :
    (s.setIe b).mem = s.mem := rfl
@[simp] theorem State.timer_setIe (s : State) (b : Bool) :
    (s.setIe b).timer = s.timer := rfl
@[simp] theorem State.sio_setIe (s : State) (b : Bool) :
    (s.setIe b).sio = s.sio := rfl
@[simp] theorem State.console_setIe (s : State) (b : Bool) :
    (s.setIe b).console = s.console := rfl
@[simp] theorem State.pio_setIe (s : State) (b : Bool) :
    (s.setIe b).pio = s.pio := rfl
@[simp] theorem State.harness_setIe (s : State) (b : Bool) :
    (s.setIe b).harness = s.harness := rfl
@[simp] theorem State.freeCount_setIe (s : State) (b : Bool) :
    (s.setIe b).freeCount = s.freeCount := rfl
@[simp] theorem State.readMem_setIe (s : State) (b : Bool) (k : Byte) :
    (s.setIe b).readMem k = s.readMem k := rfl

/-! ### setFlags -/

@[simp] theorem State.reg_setFlags (s : State) (c sg z : Bool) (q : Reg) :
    (s.setFlags c sg z).reg q = s.reg q := by cases q <;> rfl
@[simp] theorem State.g0_setFlags (s : State) (c sg z : Bool) :
    (s.setFlags c sg z).g0 = s.g0 := rfl
@[simp] theorem State.g1_setFlags (s : State) (c sg z : Bool) :
    (s.setFlags c sg z).g1 = s.g1 := rfl
@[simp] theorem State.g2_setFlags (s : State) (c sg z : Bool) :
    (s.setFlags c sg z).g2 = s.g2 := rfl
@[simp] theorem State.sp_setFlags (s : State) (c sg z : Bool) :
    (s.setFlags c sg z).sp = s.sp := rfl
@[simp] theorem State.pc_setFlags (s : State) (c sg z : Bool) :
    (s.setFlags c sg z).pc = s.pc := rfl
@[simp] theorem State.flagC_setFlags (s : State) (c sg z : Bool) :
    (s.setFlags c sg z).flagC = c := rfl
@[simp] theorem State.flagS_setFlags (s : State) (c sg z : Bool) :
    (s.setFlags c sg z).flagS = sg := rfl
@[simp] theorem State.flagZ_setFlags (s : State) (c sg z : Bool) :
    (s.setFlags c sg z).flagZ = z := rfl
@[simp] theorem State.ie_setFlags (s : State) (c sg z : Bool) :
    (s.setFlags c sg z).ie = s.ie := rfl
@[simp] theorem State.run_setFlags (s : State) (c sg z : Bool) :
    (s.setFlags c sg z).run = s.run := rfl
@[simp] theorem State.error_setFlags (s : State) (c sg z : Bool) :
    (s.setFlags c sg z).error = s.error := rfl
@[simp] theorem State.mem_setFlags (s : State) (c sg z : Bool) :
    (s.setFlags c sg z).mem = s.mem := rfl
@[simp] theorem State.timer_setFlags (s : State) (c sg z : Bool) :
    (s.setFlags c sg z).timer = s.timer := rfl
@[simp] theorem State.sio_setFlags (s : State) (c sg z : Bool) :
    (s.setFlags c sg z).sio = s.sio := rfl
@[simp] theorem State.console_setFlags (s : State) (c sg z : Bool) :
    (s.setFlags c sg z).console = s.console := rfl
@[simp] theorem State.pio_setFlags (s : State) (c sg z : Bool) :
    (s.setFlags c sg z).pio = s.pio := rfl
@[simp] theorem State.harness_setFlags (s : State) (c sg z : Bool) :
    (s.setFlags c sg z).harness = s.harness := rfl
@[simp] theorem State.freeCount_setFlags (s : State) (c sg z : Bool) :
    (s.setFlags c sg z).freeCount = s.freeCount := rfl
@[simp] theorem State.readMem_setFlags (s : State) (c sg z : Bool) (k : Byte) :
    (s.setFlags c sg z).readMem k = s.readMem k := rfl

/-! ### setRun -/

@[simp] theorem State.reg_setRun (s : State) (b : Bool) (q : Reg) :
    (s.setRun b).reg q = s.reg q := by cases q <;> rfl
@[simp] theorem State.g0_setRun (s : State) (b : Bool) :
    (s.setRun b).g0 = s.g0 := rfl
@[simp] theorem State.g1_setRun (s : State) (b : Bool) :
    (s.setRun b).g1 = s.g1 := rfl
@[simp] theorem State.g2_setRun (s : State) (b : Bool) :
    (s.setRun b).g2 = s.g2 := rfl
@[simp] theorem State.sp_setRun (s : State) (b : Bool) :
    (s.setRun b).sp = s.sp := rfl
@[simp] theorem State.pc_setRun (s : State) (b : Bool) :
    (s.setRun b).pc = s.pc := rfl
@[simp] theorem State.flagC_setRun (s : State) (b : Bool) :
    (s.setRun b).flagC = s.flagC := rfl
@[simp] theorem State.flagS_setRun (s : State) (b : Bool) :
    (s.setRun b).flagS = s.flagS := rfl
@[simp] theorem State.flagZ_setRun (s : State) (b : Bool) :
    (s.setRun b).flagZ = s.flagZ := rfl
@[simp] theorem State.ie_setRun (s : State) (b : Bool) :
    (s.setRun b).ie = s.ie := rfl
@[simp] theorem State.run_setRun (s : State) (b : Bool) :
    (s.setRun b).run = b := rfl
@[simp] theorem State.error_setRun (s : State) (b : Bool) :
    (s.setRun b).error = s.error := rfl
@[simp] theorem State.mem_setRun (s : State) (b : Bool) :
    (s.setRun b).mem = s.mem := rfl
@[simp] theorem State.timer_setRun (s : State) (b : Bool) :
    (s.setRun b).timer = s.timer := rfl
@[simp] theorem State.sio_setRun (s : State) (b : Bool) :
    (s.setRun b).sio = s.sio := rfl
@[simp] theorem State.console_setRun (s : State) (b : Bool) :
    (s.setRun b).console = s.console := rfl
@[simp] theorem State.pio_setRun (s : State) (b : Bool) :
    (s.setRun b).pio = s.pio := rfl
@[simp] theorem State.harness_setRun (s : State) (b : Bool) :
    (s.setRun b).harness = s.harness := rfl
@[simp] theorem State.freeCount_setRun (s : State) (b : Bool) :
    (s.setRun b).freeCount = s.freeCount := rfl
@[simp] theorem State.readMem_setRun (s : State) (b : Bool) (k : Byte) :
    (s.setRun b).readMem k = s.readMem k := rfl

/-! ### setTimer -/

@[simp] theorem State.reg_setTimer (s : State) (x : Timer) (q : Reg) :
    (s.setTimer x).reg q = s.reg q := by cases q <;> rfl
@[simp] theorem State.g0_setTimer (s : State) (x : Timer) :
    (s.setTimer x).g0 = s.g0 := rfl
@[simp] theorem State.g1_setTimer (s : State) (x : Timer) :
    (s.setTimer x).g1 = s.g1 := rfl
@[simp] theorem State.g2_setTimer (s : State) (x : Timer) :
    (s.setTimer x).g2 = s.g2 := rfl
@[simp] theorem State.sp_setTimer (s : State) (x : Timer) :
    (s.setTimer x).sp = s.sp := rfl
@[simp] theorem State.pc_setTimer (s : State) (x : Timer) :
    (s.setTimer x).pc = s.pc := rfl
@[simp] theorem State.flagC_setTimer (s : State) (x : Timer) :
    (s.setTimer x).flagC = s.flagC := rfl
@[simp] theorem State.flagS_setTimer (s : State) (x : Timer) :
    (s.setTimer x).flagS = s.flagS := rfl
@[simp] theorem State.flagZ_setTimer (s : State) (x : Timer) :
    (s.setTimer x).flagZ = s.flagZ := rfl
@[simp] theorem State.ie_setTimer (s : State) (x : Timer) :
    (s.setTimer x).ie = s.ie := rfl
@[simp] theorem State.run_setTimer (s : State) (x : Timer) :
    (s.setTimer x).run = s.run := rfl
@[simp] theorem State.error_setTimer (s : State) (x : Timer) :
    (s.setTimer x).error = s.error := rfl
@[simp] theorem State.mem_setTimer (s : State) (x : Timer) :
    (s.setTimer x).mem = s.mem := rfl
@[simp] theorem State.timer_setTimer (s : State) (x : Timer) :
    (s.setTimer x).timer = x := rfl
@[simp] theorem State.sio_setTimer (s : State) (x : Timer) :
    (s.setTimer x).sio = s.sio := rfl
@[simp] theorem State.console_setTimer (s : State) (x : Timer) :
    (s.setTimer x).console = s.console := rfl
@[simp] theorem State.pio_setTimer (s : State) (x : Timer) :
    (s.setTimer x).pio = s.pio := rfl
@[simp] theorem State.harness_setTimer (s : State) (x : Timer) :
    (s.setTimer x).harness = s.harness := rfl
@[simp] theorem State.freeCount_setTimer (s : State) (x : Timer) :
    (s.setTimer x).freeCount = s.freeCount := rfl
@[simp] theorem State.readMem_setTimer (s : State) (x : Timer) (k : Byte) :
    (s.setTimer x).readMem k = s.readMem k := rfl

/-! ### setSio -/

@[simp] theorem State.reg_setSio (s : State) (x : Sio) (q : Reg) :
    (s.setSio x).reg q = s.reg q := by cases q <;> rfl
@[simp] theorem State.g0_setSio (s : State) (x : Sio) :
    (s.setSio x).g0 = s.g0 := rfl
@[simp] theorem State.g1_setSio (s : State) (x : Sio) :
    (s.setSio x).g1 = s.g1 := rfl
@[simp] theorem State.g2_setSio (s : State) (x : Sio) :
    (s.setSio x).g2 = s.g2 := rfl
@[simp] theorem State.sp_setSio (s : State) (x : Sio) :
    (s.setSio x).sp = s.sp := rfl
@[simp] theorem State.pc_setSio (s : State) (x : Sio) :
    (s.setSio x).pc = s.pc := rfl
@[simp] theorem State.flagC_setSio (s : State) (x : Sio) :
    (s.setSio x).flagC = s.flagC := rfl
@[simp] theorem State.flagS_setSio (s : State) (x : Sio) :
    (s.setSio x).flagS = s.flagS := rfl
@[simp] theorem State.flagZ_setSio (s : State) (x : Sio) :
    (s.setSio x).flagZ = s.flagZ := rfl
@[simp] theorem State.ie_setSio (s : State) (x : Sio) :
    (s.setSio x).ie = s.ie := rfl
@[simp] theorem State.run_setSio (s : State) (x : Sio) :
    (s.setSio x).run = s.run := rfl
@[simp] theorem State.error_setSio (s : State) (x : Sio) :
    (s.setSio x).error = s.error := rfl
@[simp] theorem State.mem_setSio (s : State) (x : Sio) :
    (s.setSio x).mem = s.mem := rfl
@[simp] theorem State.timer_setSio (s : State) (x : Sio) :
    (s.setSio x).timer = s.timer := rfl
@[simp] theorem State.sio_setSio (s : State) (x : Sio) :
    (s.setSio x).sio = x := rfl
@[simp] theorem State.console_setSio (s : State) (x : Sio) :
    (s.setSio x).console = s.console := rfl
@[simp] theorem State.pio_setSio (s : State) (x : Sio) :
    (s.setSio x).pio = s.pio := rfl
@[simp] theorem State.harness_setSio (s : State) (x : Sio) :
    (s.setSio x).harness = s.harness := rfl
@[simp] theorem State.freeCount_setSio (s : State) (x : Sio) :
    (s.setSio x).freeCount = s.freeCount := rfl
@[simp] theorem State.readMem_setSio (s : State) (x : Sio) (k : Byte) :
    (s.setSio x).readMem k = s.readMem k := rfl

/-! ### setConsole -/

@[simp] theorem State.reg_setConsole (s : State) (x : Console) (q : Reg) :
    (s.setConsole x).reg q = s.reg q := by cases q <;> rfl
@[simp] theorem State.g0_setConsole (s : State) (x : Console) :
    (s.setConsole x).g0 = s.g0 := rfl
@[simp] theorem State.g1_setConsole (s : State) (x : Console) :
    (s.setConsole x).g1 = s.g1 := rfl
@[simp] theorem State.g2_setConsole (s : State) (x : Console) :
    (s.setConsole x).g2 = s.g2 := rfl
@[simp] theorem State.sp_setConsole (s : State) (x : Console) :
    (s.setConsole x).sp = s.sp := rfl
@[simp] theorem State.pc_setConsole (s : State) (x : Console) :
    (s.setConsole x).pc = s.pc := rfl
@[simp] theorem State.flagC_setConsole (s : State) (x : Console) :
    (s.setConsole x).flagC = s.flagC := rfl
@[simp] theorem State.flagS_setConsole (s : State) (x : Console) :
    (s.setConsole x).flagS = s.flagS := rfl
@[simp] theorem State.flagZ_setConsole (s : State) (x : Console) :
    (s.setConsole x).flagZ = s.flagZ := rfl
@[simp] theorem State.ie_setConsole (s : State) (x : Console) :
    (s.setConsole x).ie = s.ie := rfl
@[simp] theorem State.run_setConsole (s : State) (x : Console) :
    (s.setConsole x).run = s.run := rfl
@[simp] theorem State.error_setConsole (s : State) (x : Console) :
    (s.setConsole x).error = s.error := rfl
@[simp] theorem State.mem_setConsole (s : State) (x : Console) :
    (s.setConsole x).mem = s.mem := rfl
@[simp] theorem State.timer_setConsole (s : State) (x : Console) :
    (s.setConsole x).timer = s.timer := rfl
@[simp] theorem State.sio_setConsole (s : State) (x : Console) :
    (s.setConsole x).sio = s.sio := rfl
@[simp] theorem State.console_setConsole (s : State) (x : Console) :
    (s.setConsole x).console = x := rfl
@[simp] theorem State.pio_setConsole (s : State) (x : Console) :
    (s.setConsole x).pio = s.pio := rfl
@[simp] theorem State.harness_setConsole (s : State) (x : Console) :
    (s.setConsole x).harness = s.harness := rfl
@[simp] theorem State.freeCount_setConsole (s : State) (x : Console) :
    (s.setConsole x).freeCount = s.freeCount := rfl
@[simp] theorem State.readMem_setConsole (s : State) (x : Console) (k : Byte) :
    (s.setConsole x).readMem k = s.readMem k := rfl

/-! ### setPio -/

@[simp] theorem State.reg_setPio (s : State) (x : Pio) (q : Reg) :
    (s.setPio x).reg q = s.reg q := by cases q <;> rfl
@[simp] theorem State.g0_setPio (s : State) (x : Pio) :
    (s.setPio x).g0 = s.g0 := rfl
@[simp] theorem State.g1_setPio (s : State) (x : Pio) :
    (s.setPio x).g1 = s.g1 := rfl
@[simp] theorem State.g2_setPio (s : State) (x : Pio) :
    (s.setPio x).g2 = s.g2 := rfl
@[simp] theorem State.sp_setPio (s : State) (x : Pio) :
    (s.setPio x).sp = s.sp := rfl
@[simp] theorem State.pc_setPio (s : State) (x : Pio) :
    (s.setPio x).pc = s.pc := rfl
@[simp] theorem State.flagC_setPio (s : State) (x : Pio) :
    (s.setPio x).flagC = s.flagC := rfl
@[simp] theorem State.flagS_setPio (s : State) (x : Pio) :
    (s.setPio x).flagS = s.flagS := rfl
@[simp] theorem State.flagZ_setPio (s : State) (x : Pio) :
    (s.setPio x).flagZ = s.flagZ := rfl
@[simp] theorem State.ie_setPio (s : State) (x : Pio) :
    (s.setPio x).ie = s.ie := rfl
@[simp] theorem State.run_setPio (s : State) (x : Pio) :
    (s.setPio x).run = s.run := rfl
@[simp] theorem State.error_setPio (s : State) (x : Pio) :
    (s.setPio x).error = s.error := rfl
@[simp] theorem State.mem_setPio (s : State) (x : Pio) :
    (s.setPio x).mem = s.mem := rfl
@[simp] theorem State.timer_setPio (s : State) (x : Pio) :
    (s.setPio x).timer = s.timer := rfl
@[simp] theorem State.sio_setPio (s : State) (x : Pio) :
    (s.setPio x).sio = s.sio := rfl
@[simp] theorem State.console_setPio (s : State) (x : Pio) :
    (s.setPio x).console = s.console := rfl
@[simp] theorem State.pio_setPio (s : State) (x : Pio) :
    (s.setPio x).pio = x := rfl
@[simp] theorem State.harness_setPio (s : State) (x : Pio) :
    (s.setPio x).harness = s.harness := rfl
@[simp] theorem State.freeCount_setPio (s : State) (x : Pio) :
    (s.setPio x).freeCount = s.freeCount := rfl
@[simp] theorem State.readMem_setPio (s : State) (x : Pio) (k : Byte) :
    (s.setPio x).readMem k = s.readMem k := rfl

/-! ### setHarness -/

@[simp] theorem State.reg_setHarness (s : State) (x : Harness) (q : Reg) :
    (s.setHarness x).reg q = s.reg q := by cases q <;> rfl
@[simp] theorem State.g0_setHarness (s : State) (x : Harness) :
    (s.setHarness x).g0 = s.g0 := rfl
@[simp] theorem State.g1_setHarness (s : State) (x : Harness) :
    (s.setHarness x).g1 = s.g1 := rfl
@[simp] theorem State.g2_setHarness (s : State) (x : Harness) :
    (s.setHarness x).g2 = s.g2 := rfl
@[simp] theorem State.sp_setHarness (s : State) (x : Harness) :
    (s.setHarness x).sp = s.sp := rfl
@[simp] theorem State.pc_setHarness (s : State) (x : Harness) :
    (s.setHarness x).pc = s.pc := rfl
@[simp] theorem State.flagC_setHarness (s : State) (x : Harness) :
    (s.setHarness x).flagC = s.flagC := rfl
@[simp] theorem State.flagS_setHarness (s : State) (x : Harness) :
    (s.setHarness x).flagS = s.flagS := rfl
@[simp] theorem State.flagZ_setHarness (s : State) (x : Harness) :
    (s.setHarness x).flagZ = s.flagZ := rfl
@[simp] theorem State.ie_setHarness (s : State) (x : Harness) :
    (s.setHarness x).ie = s.ie := rfl
@[simp] theorem State.run_setHarness (s : State) (x : Harness) :
    (s.setHarness x).run = s.run := rfl
@[simp] theorem State.error_setHarness (s : State) (x : Harness) :
    (s.setHarness x).error = s.error := rfl
@[simp] theorem State.mem_setHarness (s : State) (x : Harness) :
    (s.setHarness x).mem = s.mem := rfl
@[simp] theorem State.timer_setHarness (s : State) (x : Harness) :
    (s.setHarness x).timer = s.timer := rfl
@[simp] theorem State.sio_setHarness (s : State) (x : Harness) :
    (s.setHarness x).sio = s.sio := rfl
@[simp] theorem State.console_setHarness (s : State) (x : Harness) :
    (s.setHarness x).console = s.console := rfl
@[simp] theorem State.pio_setHarness (s : State) (x : Harness) :
    (s.setHarness x).pio = s.pio := rfl
@[simp] theorem State.harness_setHarness (s : State) (x : Harness) :
    (s.setHarness x).harness = x := rfl
@[simp] theorem State.freeCount_setHarness (s : State) (x : Harness) :
    (s.setHarness x).freeCount = s.freeCount := rfl
@[simp] theorem State.readMem_setHarness (s : State) (x : Harness) (k : Byte) :
    (s.setHarness x).readMem k = s.readMem k := rfl

/-! ### writeMem -/

@[simp] theorem State.reg_writeMem (s : State) (a v : Byte) (q : Reg) :
    (s.writeMem a v).reg q = s.reg q := by cases q <;> rfl
@[simp] theorem State.g0_writeMem (s : State) (a v : Byte) :
    (s.writeMem a v).g0 = s.g0 := rfl
@[simp] theorem State.g1_writeMem (s : State) (a v : Byte) :
    (s.writeMem a v).g1 = s.g1 := rfl
@[simp] theorem State.g2_writeMem (s : State) (a v : Byte) :
    (s.writeMem a v).g2 = s.g2 := rfl
@[simp] theorem State.sp_writeMem (s : State) (a v : Byte) :
    (s.writeMem a v).sp = s.sp := rfl
@[simp] theorem State.pc_writeMem (s : State) (a v : Byte) :
    (s.writeMem a v).pc = s.pc := rfl
@[simp] theorem State.flagC_writeMem (s : State) (a v : Byte) :
    (s.writeMem a v).flagC = s.flagC := rfl
@[simp] theorem State.flagS_writeMem (s : State) (a v : Byte) :
    (s.writeMem a v).flagS = s.flagS := rfl
@[simp] theorem State.flagZ_writeMem (s : State) (a v : Byte) :
    (s.writeMem a v).flagZ = s.flagZ := rfl
@[simp] theorem State.ie_writeMem (s : State) (a v : Byte) :
    (s.writeMem a v).ie = s.ie := rfl
@[simp] theorem State.run_writeMem (s : State) (a v : Byte) :
    (s.writeMem a v).run = s.run := rfl
@[simp] theorem State.error_writeMem (s : State) (a v : Byte) :
    (s.writeMem a v).error = s.error := rfl
@[simp] theorem State.mem_writeMem (s : State) (a v : Byte) :
    (s.writeMem a v).mem = Memory.write s.mem a v := rfl
@[simp] theorem State.timer_writeMem (s : State) (a v : Byte) :
    (s.writeMem a v).timer = s.timer := rfl
@[simp] theorem State.sio_writeMem (s : State) (a v : Byte) :
    (s.writeMem a v).sio = s.sio := rfl
@[simp] theorem State.console_writeMem (s : State) (a v : Byte) :
    (s.writeMem a v).console = s.console := rfl
@[simp] theorem State.pio_writeMem (s : State) (a v : Byte) :
    (s.writeMem a v).pio = s.pio := rfl
@[simp] theorem State.harness_writeMem (s : State) (a v : Byte) :
    (s.writeMem a v).harness = s.harness := rfl
@[simp] theorem State.freeCount_writeMem (s : State) (a v : Byte) :
    (s.writeMem a v).freeCount = s.freeCount := rfl

/-! ### raiseError -/

@[simp] theorem State.reg_raiseError (s : State) (q : Reg) :
    (s.raiseError).reg q = s.reg q := by cases q <;> rfl
@[simp] theorem State.g0_raiseError (s : State) :
    (s.raiseError).g0 = s.g0 := rfl
@[simp] theorem State.g1_raiseError (s : State) :
    (s.raiseError).g1 = s.g1 := rfl
@[simp] theorem State.g2_raiseError (s : State) :
    (s.raiseError).g2 = s.g2 := rfl
@[simp] theorem State.sp_raiseError (s : State) :
    (s.raiseError).sp = s.sp := rfl
@[simp] theorem State.pc_raiseError (s : State) :
    (s.raiseError).pc = Config.errorPc s.freeCount := rfl
@[simp] theorem State.flagC_raiseError (s : State) :
    (s.raiseError).flagC = s.flagC := rfl
@[simp] theorem State.flagS_raiseError (s : State) :
    (s.raiseError).flagS = s.flagS := rfl
@[simp] theorem State.flagZ_raiseError (s : State) :
    (s.raiseError).flagZ = s.flagZ := rfl
@[simp] theorem State.ie_raiseError (s : State) :
    (s.raiseError).ie = s.ie := rfl
@[simp] theorem State.run_raiseError (s : State) :
    (s.raiseError).run = false := rfl
@[simp] theorem State.error_raiseError (s : State) :
    (s.raiseError).error = true := rfl
@[simp] theorem State.mem_raiseError (s : State) :
    (s.raiseError).mem = s.mem := rfl
@[simp] theorem State.timer_raiseError (s : State) :
    (s.raiseError).timer = s.timer := rfl
@[simp] theorem State.sio_raiseError (s : State) :
    (s.raiseError).sio = s.sio := rfl
@[simp] theorem State.console_raiseError (s : State) :
    (s.raiseError).console = s.console := rfl
@[simp] theorem State.pio_raiseError (s : State) :
    (s.raiseError).pio = s.pio := rfl
@[simp] theorem State.harness_raiseError (s : State) :
    (s.raiseError).harness = s.harness := rfl
@[simp] theorem State.freeCount_raiseError (s : State) :
    (s.raiseError).freeCount = s.freeCount + 1 := rfl
@[simp] theorem State.readMem_raiseError (s : State) (k : Byte) :
    (s.raiseError).readMem k = s.readMem k := rfl

end Sys2Proof.Machine
end

