-- ==== Sys2Proof/Laws/Memory.lean ====
section
/-! SUPPORT. Memory: what a read sees after a write, and that every operation keeps the canonical
form. -/

namespace Sys2Proof.Machine

theorem Memory.lookup_erase (m : Memory) (a b : Nat) :
    (m.erase a).lookup b = if b = a then resetByte b else m.lookup b := by
  induction m with
  | nil => simp [Memory.erase, Memory.lookup]
  | cons c m ih =>
    obtain ⟨k, w⟩ := c
    by_cases hk : a = k
    · subst hk
      by_cases hb : b = a
      · simpa [Memory.erase, hb] using ih
      · simp [Memory.erase, Memory.lookup, ih, hb]
    · by_cases hbk : b = k
      · have : b ≠ a := fun h => hk (h ▸ hbk)
        subst hbk
        simp [Memory.erase, Memory.lookup, hk, this]
      · simp [Memory.erase, Memory.lookup, ih, hk, hbk]

theorem Memory.lookup_insert_erase (m : Memory) (a b : Nat) (v : Byte) :
    ((m.erase a).insert a v).lookup b = if b = a then v else m.lookup b := by
  induction m with
  | nil => simp [Memory.erase, Memory.insert, Memory.lookup]
  | cons c m ih =>
    obtain ⟨k, w⟩ := c
    by_cases hk : a = k
    · subst hk
      by_cases hb : b = a
      · simpa [Memory.erase, hb] using ih
      · simp [Memory.erase, Memory.lookup, ih, hb]
    · by_cases hlt : a < k
      · by_cases hb : b = a
        · simp [Memory.erase, Memory.insert, Memory.lookup, hk, hlt, hb]
        · by_cases hbk : b = k <;>
            simp [Memory.erase, Memory.insert, Memory.lookup, hk, hlt, hb, hbk,
              Memory.lookup_erase]
      · by_cases hbk : b = k
        · have : b ≠ a := fun h => hk (h ▸ hbk)
          subst hbk
          simp [Memory.erase, Memory.insert, Memory.lookup, hk, hlt, this]
        · simp [Memory.erase, Memory.insert, Memory.lookup, hk, hlt, hbk, ih]

/-- A cell after another, or the same, was replaced. -/
theorem Memory.lookup_put (m : Memory) (a b : Nat) (v : Byte) :
    (m.put a v).lookup b = if b = a then v else m.lookup b := by
  unfold Memory.put
  split
  · next h => rw [Memory.lookup_erase]; by_cases hb : b = a <;> simp [hb, h]
  · exact Memory.lookup_insert_erase m a b v

/-- The read-after-write law of the gated memory (`20_memory.md` R62, R63). -/
theorem Memory.read_write (m : Memory) (a v b : Byte) :
    (m.write a v).read b = if b = a ∧ a < Config.romStart then v else m.read b := by
  unfold Memory.write Memory.read
  split
  · next h => rw [Memory.lookup_put]; simp [h, BitVec.toNat_inj]
  · next h => simp [h]

/-- A byte read after a write to memory. -/
theorem State.readMem_writeMem (s : State) (a v b : Byte) :
    (s.writeMem a v).readMem b = if b = a ∧ a < Config.romStart then v else s.readMem b :=
  Memory.read_write s.mem a v b

/-- A write leaves every other byte alone. -/
theorem State.readMem_writeMem_ne (s : State) {a b : Byte} (v : Byte) (h : b ≠ a) :
    (s.writeMem a v).readMem b = s.readMem b := by
  simp [State.readMem_writeMem, h]

/-- A write to ROM leaves every byte alone (R63). -/
theorem State.readMem_writeMem_rom (s : State) {a : Byte} (v b : Byte)
    (h : Config.romStart ≤ a) : (s.writeMem a v).readMem b = s.readMem b := by
  rw [State.readMem_writeMem, if_neg]
  exact fun hc => absurd hc.2 (BitVec.not_lt.mpr h)

theorem Memory.wfFrom_mono {m : Memory} {lo hi : Nat} (h : lo ≤ hi)
    (hm : Memory.wfFrom hi m = true) : Memory.wfFrom lo m = true := by
  cases m with
  | nil => rfl
  | cons c m =>
    obtain ⟨k, w⟩ := c
    simp only [Memory.wfFrom, Bool.and_eq_true, decide_eq_true_eq] at hm ⊢
    exact ⟨⟨⟨by omega, hm.1.1.2⟩, hm.1.2⟩, hm.2⟩

theorem Memory.wfFrom_erase {m : Memory} {lo : Nat} (a : Nat) (hm : Memory.wfFrom lo m = true) :
    Memory.wfFrom lo (m.erase a) = true := by
  induction m generalizing lo with
  | nil => rfl
  | cons c m ih =>
    obtain ⟨k, w⟩ := c
    simp only [Memory.wfFrom, Bool.and_eq_true, decide_eq_true_eq] at hm
    unfold Memory.erase
    split
    · exact ih (Memory.wfFrom_mono (by omega) hm.2)
    · simp only [Memory.wfFrom, Bool.and_eq_true, decide_eq_true_eq]
      exact ⟨hm.1, ih hm.2⟩

theorem Memory.wfFrom_insert_erase {m : Memory} {lo a : Nat} {v : Byte}
    (hm : Memory.wfFrom lo m = true) (hlo : lo ≤ a) (ha : a < 256) (hv : v ≠ resetByte a) :
    Memory.wfFrom lo ((m.erase a).insert a v) = true := by
  induction m generalizing lo with
  | nil => simp [Memory.erase, Memory.insert, Memory.wfFrom, hlo, ha, hv]
  | cons c m ih =>
    obtain ⟨k, w⟩ := c
    have hm' := hm
    simp only [Memory.wfFrom, Bool.and_eq_true, decide_eq_true_eq] at hm
    by_cases hk : a = k
    · simp only [Memory.erase, hk, if_true]
      subst hk
      exact ih (Memory.wfFrom_mono (by omega) hm.2) hlo
    · simp only [Memory.erase, hk, if_false, Memory.insert]
      split
      · next hlt =>
        simp only [Memory.wfFrom, Bool.and_eq_true, decide_eq_true_eq]
        exact ⟨⟨⟨hlo, ha⟩, hv⟩, ⟨⟨⟨by omega, hm.1.1.2⟩, hm.1.2⟩, Memory.wfFrom_erase a hm.2⟩⟩
      · next hlt =>
        simp only [Memory.wfFrom, Bool.and_eq_true, decide_eq_true_eq]
        exact ⟨hm.1, ih hm.2 (by omega)⟩

/-- Replacing a cell keeps the canonical form. -/
theorem Memory.wf_put {m : Memory} {a : Nat} (v : Byte) (ha : a < 256)
    (hm : m.wf = true) : (m.put a v).wf = true := by
  unfold Memory.put
  split
  · exact Memory.wfFrom_erase a hm
  · next hv => exact Memory.wfFrom_insert_erase hm (Nat.zero_le a) ha hv

/-- The gated write keeps the canonical form. -/
theorem Memory.wf_write {m : Memory} (a v : Byte) (hm : m.wf = true) : (m.write a v).wf = true := by
  unfold Memory.write
  split
  · exact Memory.wf_put v a.isLt hm
  · exact hm

/-- The memory after reset has the canonical form. -/
theorem Memory.wf_reset : State.reset.mem.wf = true := rfl

/-- An address with no entry reads as its boot contents. -/
theorem Memory.read_nil (a : Byte) : Memory.read [] a = resetByte a.toNat := rfl

end Sys2Proof.Machine
end

