-- ==== Sys2Proof/Laws/Ops.lean ====
section
/-! SUPPORT. What each shared operation can do, said once: its fields, and its cases. -/

namespace Sys2Proof.Machine

/-! ### push8: the push (`40_execution_cycle.md` R136) -/

@[simp] theorem State.g0_push8 (s : State) (v : Byte) :
    (s.push8 v).g0 = s.g0 := rfl
@[simp] theorem State.g1_push8 (s : State) (v : Byte) :
    (s.push8 v).g1 = s.g1 := rfl
@[simp] theorem State.g2_push8 (s : State) (v : Byte) :
    (s.push8 v).g2 = s.g2 := rfl
@[simp] theorem State.sp_push8 (s : State) (v : Byte) :
    (s.push8 v).sp = s.sp - 1#8 := rfl
@[simp] theorem State.pc_push8 (s : State) (v : Byte) :
    (s.push8 v).pc = s.pc := rfl
@[simp] theorem State.flagC_push8 (s : State) (v : Byte) :
    (s.push8 v).flagC = s.flagC := rfl
@[simp] theorem State.flagS_push8 (s : State) (v : Byte) :
    (s.push8 v).flagS = s.flagS := rfl
@[simp] theorem State.flagZ_push8 (s : State) (v : Byte) :
    (s.push8 v).flagZ = s.flagZ := rfl
@[simp] theorem State.ie_push8 (s : State) (v : Byte) :
    (s.push8 v).ie = s.ie := rfl
@[simp] theorem State.run_push8 (s : State) (v : Byte) :
    (s.push8 v).run = s.run := rfl
@[simp] theorem State.error_push8 (s : State) (v : Byte) :
    (s.push8 v).error = s.error := rfl
@[simp] theorem State.mem_push8 (s : State) (v : Byte) :
    (s.push8 v).mem = Memory.write s.mem (s.sp - 1#8) v := rfl
@[simp] theorem State.timer_push8 (s : State) (v : Byte) :
    (s.push8 v).timer = s.timer := rfl
@[simp] theorem State.sio_push8 (s : State) (v : Byte) :
    (s.push8 v).sio = s.sio := rfl
@[simp] theorem State.console_push8 (s : State) (v : Byte) :
    (s.push8 v).console = s.console := rfl
@[simp] theorem State.pio_push8 (s : State) (v : Byte) :
    (s.push8 v).pio = s.pio := rfl
@[simp] theorem State.harness_push8 (s : State) (v : Byte) :
    (s.push8 v).harness = s.harness := rfl
@[simp] theorem State.freeCount_push8 (s : State) (v : Byte) :
    (s.push8 v).freeCount = s.freeCount := rfl
@[simp] theorem State.reg_push8 (s : State) (v : Byte) (q : Reg) :
    (s.push8 v).reg q = if q = .sp then s.sp - 1#8 else s.reg q := by cases q <;> rfl

/-! ### advancePc: past an instruction's bytes -/

@[simp] theorem State.g0_advancePc (s : State) (n : Nat) :
    (s.advancePc n).g0 = s.g0 := rfl
@[simp] theorem State.g1_advancePc (s : State) (n : Nat) :
    (s.advancePc n).g1 = s.g1 := rfl
@[simp] theorem State.g2_advancePc (s : State) (n : Nat) :
    (s.advancePc n).g2 = s.g2 := rfl
@[simp] theorem State.sp_advancePc (s : State) (n : Nat) :
    (s.advancePc n).sp = s.sp := rfl
@[simp] theorem State.pc_advancePc (s : State) (n : Nat) :
    (s.advancePc n).pc = s.pc + BitVec.ofNat 8 n := rfl
@[simp] theorem State.flagC_advancePc (s : State) (n : Nat) :
    (s.advancePc n).flagC = s.flagC := rfl
@[simp] theorem State.flagS_advancePc (s : State) (n : Nat) :
    (s.advancePc n).flagS = s.flagS := rfl
@[simp] theorem State.flagZ_advancePc (s : State) (n : Nat) :
    (s.advancePc n).flagZ = s.flagZ := rfl
@[simp] theorem State.ie_advancePc (s : State) (n : Nat) :
    (s.advancePc n).ie = s.ie := rfl
@[simp] theorem State.run_advancePc (s : State) (n : Nat) :
    (s.advancePc n).run = s.run := rfl
@[simp] theorem State.error_advancePc (s : State) (n : Nat) :
    (s.advancePc n).error = s.error := rfl
@[simp] theorem State.mem_advancePc (s : State) (n : Nat) :
    (s.advancePc n).mem = s.mem := rfl
@[simp] theorem State.timer_advancePc (s : State) (n : Nat) :
    (s.advancePc n).timer = s.timer := rfl
@[simp] theorem State.sio_advancePc (s : State) (n : Nat) :
    (s.advancePc n).sio = s.sio := rfl
@[simp] theorem State.console_advancePc (s : State) (n : Nat) :
    (s.advancePc n).console = s.console := rfl
@[simp] theorem State.pio_advancePc (s : State) (n : Nat) :
    (s.advancePc n).pio = s.pio := rfl
@[simp] theorem State.harness_advancePc (s : State) (n : Nat) :
    (s.advancePc n).harness = s.harness := rfl
@[simp] theorem State.freeCount_advancePc (s : State) (n : Nat) :
    (s.advancePc n).freeCount = s.freeCount := rfl
@[simp] theorem State.reg_advancePc (s : State) (n : Nat) (q : Reg) :
    (s.advancePc n).reg q = s.reg q := by cases q <;> rfl
@[simp] theorem State.readMem_advancePc (s : State) (n : Nat) (k : Byte) :
    (s.advancePc n).readMem k = s.readMem k := rfl

/-! ### loadFlagsByte: a flags byte loaded (`10_state.md` R34) -/

@[simp] theorem State.g0_loadFlagsByte (s : State) (f : Byte) :
    (s.loadFlagsByte f).g0 = s.g0 := rfl
@[simp] theorem State.g1_loadFlagsByte (s : State) (f : Byte) :
    (s.loadFlagsByte f).g1 = s.g1 := rfl
@[simp] theorem State.g2_loadFlagsByte (s : State) (f : Byte) :
    (s.loadFlagsByte f).g2 = s.g2 := rfl
@[simp] theorem State.sp_loadFlagsByte (s : State) (f : Byte) :
    (s.loadFlagsByte f).sp = s.sp := rfl
@[simp] theorem State.pc_loadFlagsByte (s : State) (f : Byte) :
    (s.loadFlagsByte f).pc = s.pc := rfl
@[simp] theorem State.flagC_loadFlagsByte (s : State) (f : Byte) :
    (s.loadFlagsByte f).flagC = f.getLsbD 2 := rfl
@[simp] theorem State.flagS_loadFlagsByte (s : State) (f : Byte) :
    (s.loadFlagsByte f).flagS = f.getLsbD 1 := rfl
@[simp] theorem State.flagZ_loadFlagsByte (s : State) (f : Byte) :
    (s.loadFlagsByte f).flagZ = f.getLsbD 0 := rfl
@[simp] theorem State.ie_loadFlagsByte (s : State) (f : Byte) :
    (s.loadFlagsByte f).ie = f.getLsbD 7 := rfl
@[simp] theorem State.run_loadFlagsByte (s : State) (f : Byte) :
    (s.loadFlagsByte f).run = s.run := rfl
@[simp] theorem State.error_loadFlagsByte (s : State) (f : Byte) :
    (s.loadFlagsByte f).error = s.error := rfl
@[simp] theorem State.mem_loadFlagsByte (s : State) (f : Byte) :
    (s.loadFlagsByte f).mem = s.mem := rfl
@[simp] theorem State.timer_loadFlagsByte (s : State) (f : Byte) :
    (s.loadFlagsByte f).timer = s.timer := rfl
@[simp] theorem State.sio_loadFlagsByte (s : State) (f : Byte) :
    (s.loadFlagsByte f).sio = s.sio := rfl
@[simp] theorem State.console_loadFlagsByte (s : State) (f : Byte) :
    (s.loadFlagsByte f).console = s.console := rfl
@[simp] theorem State.pio_loadFlagsByte (s : State) (f : Byte) :
    (s.loadFlagsByte f).pio = s.pio := rfl
@[simp] theorem State.harness_loadFlagsByte (s : State) (f : Byte) :
    (s.loadFlagsByte f).harness = s.harness := rfl
@[simp] theorem State.freeCount_loadFlagsByte (s : State) (f : Byte) :
    (s.loadFlagsByte f).freeCount = s.freeCount := rfl
@[simp] theorem State.reg_loadFlagsByte (s : State) (f : Byte) (q : Reg) :
    (s.loadFlagsByte f).reg q = s.reg q := by cases q <;> rfl
@[simp] theorem State.readMem_loadFlagsByte (s : State) (f : Byte) (k : Byte) :
    (s.loadFlagsByte f).readMem k = s.readMem k := rfl

/-! ### returnFromInterrupt: the return from an interrupt (`47_system.md` R263) -/

@[simp] theorem State.g0_returnFromInterrupt (s : State) :
    (s.returnFromInterrupt).g0 = s.g0 := by simp [State.returnFromInterrupt, State.pop8]
@[simp] theorem State.g1_returnFromInterrupt (s : State) :
    (s.returnFromInterrupt).g1 = s.g1 := by simp [State.returnFromInterrupt, State.pop8]
@[simp] theorem State.g2_returnFromInterrupt (s : State) :
    (s.returnFromInterrupt).g2 = s.g2 := by simp [State.returnFromInterrupt, State.pop8]
@[simp] theorem State.sp_returnFromInterrupt (s : State) :
    (s.returnFromInterrupt).sp = s.sp + 1#8 + 1#8 := by simp [State.returnFromInterrupt, State.pop8]
@[simp] theorem State.pc_returnFromInterrupt (s : State) :
    (s.returnFromInterrupt).pc = s.readMem (s.sp + 1#8) := by simp [State.returnFromInterrupt, State.pop8]
@[simp] theorem State.flagC_returnFromInterrupt (s : State) :
    (s.returnFromInterrupt).flagC = (s.readMem s.sp).getLsbD 2 := by simp [State.returnFromInterrupt, State.pop8]
@[simp] theorem State.flagS_returnFromInterrupt (s : State) :
    (s.returnFromInterrupt).flagS = (s.readMem s.sp).getLsbD 1 := by simp [State.returnFromInterrupt, State.pop8]
@[simp] theorem State.flagZ_returnFromInterrupt (s : State) :
    (s.returnFromInterrupt).flagZ = (s.readMem s.sp).getLsbD 0 := by simp [State.returnFromInterrupt, State.pop8]
@[simp] theorem State.ie_returnFromInterrupt (s : State) :
    (s.returnFromInterrupt).ie = (s.readMem s.sp).getLsbD 7 := by simp [State.returnFromInterrupt, State.pop8]
@[simp] theorem State.run_returnFromInterrupt (s : State) :
    (s.returnFromInterrupt).run = s.run := by simp [State.returnFromInterrupt, State.pop8]
@[simp] theorem State.error_returnFromInterrupt (s : State) :
    (s.returnFromInterrupt).error = s.error := by simp [State.returnFromInterrupt, State.pop8]
@[simp] theorem State.mem_returnFromInterrupt (s : State) :
    (s.returnFromInterrupt).mem = s.mem := by simp [State.returnFromInterrupt, State.pop8]
@[simp] theorem State.timer_returnFromInterrupt (s : State) :
    (s.returnFromInterrupt).timer = s.timer := by simp [State.returnFromInterrupt, State.pop8]
@[simp] theorem State.sio_returnFromInterrupt (s : State) :
    (s.returnFromInterrupt).sio = s.sio := by simp [State.returnFromInterrupt, State.pop8]
@[simp] theorem State.console_returnFromInterrupt (s : State) :
    (s.returnFromInterrupt).console = s.console := by simp [State.returnFromInterrupt, State.pop8]
@[simp] theorem State.pio_returnFromInterrupt (s : State) :
    (s.returnFromInterrupt).pio = s.pio := by simp [State.returnFromInterrupt, State.pop8]
@[simp] theorem State.harness_returnFromInterrupt (s : State) :
    (s.returnFromInterrupt).harness = s.harness := by simp [State.returnFromInterrupt, State.pop8]
@[simp] theorem State.freeCount_returnFromInterrupt (s : State) :
    (s.returnFromInterrupt).freeCount = s.freeCount := by simp [State.returnFromInterrupt, State.pop8]
@[simp] theorem State.reg_returnFromInterrupt (s : State) (q : Reg) :
    (s.returnFromInterrupt).reg q = if q = .sp then s.sp + 1#8 + 1#8 else s.reg q := by cases q <;> simp [State.reg]
@[simp] theorem State.readMem_returnFromInterrupt (s : State) (k : Byte) :
    (s.returnFromInterrupt).readMem k = s.readMem k := by simp [State.returnFromInterrupt, State.pop8]

/-! ### The flags byte -/

@[simp] theorem State.flagsByte_push8 (s : State) (v : Byte) :
    (s.push8 v).flagsByte = s.flagsByte := rfl
@[simp] theorem State.flagsByte_setTimer (s : State) (x : Timer) :
    (s.setTimer x).flagsByte = s.flagsByte := rfl
@[simp] theorem State.flagsByte_setConsole (s : State) (x : Console) :
    (s.setConsole x).flagsByte = s.flagsByte := rfl

/-! ### dispatch: the interrupt entry (`60_exceptions.md` R320) -/

@[simp] theorem State.g0_dispatch (s : State) (vec : Byte) :
    (s.dispatch vec).g0 = s.g0 := by simp [State.dispatch]
@[simp] theorem State.g1_dispatch (s : State) (vec : Byte) :
    (s.dispatch vec).g1 = s.g1 := by simp [State.dispatch]
@[simp] theorem State.g2_dispatch (s : State) (vec : Byte) :
    (s.dispatch vec).g2 = s.g2 := by simp [State.dispatch]
@[simp] theorem State.sp_dispatch (s : State) (vec : Byte) :
    (s.dispatch vec).sp = s.sp - 1#8 - 1#8 := by simp [State.dispatch]
@[simp] theorem State.pc_dispatch (s : State) (vec : Byte) :
    (s.dispatch vec).pc = ((s.push8 s.pc).push8 s.flagsByte).readMem vec := by simp [State.dispatch]
@[simp] theorem State.flagC_dispatch (s : State) (vec : Byte) :
    (s.dispatch vec).flagC = s.flagC := by simp [State.dispatch]
@[simp] theorem State.flagS_dispatch (s : State) (vec : Byte) :
    (s.dispatch vec).flagS = s.flagS := by simp [State.dispatch]
@[simp] theorem State.flagZ_dispatch (s : State) (vec : Byte) :
    (s.dispatch vec).flagZ = s.flagZ := by simp [State.dispatch]
@[simp] theorem State.ie_dispatch (s : State) (vec : Byte) :
    (s.dispatch vec).ie = false := by simp [State.dispatch]
@[simp] theorem State.run_dispatch (s : State) (vec : Byte) :
    (s.dispatch vec).run = s.run := by simp [State.dispatch]
@[simp] theorem State.error_dispatch (s : State) (vec : Byte) :
    (s.dispatch vec).error = s.error := by simp [State.dispatch]
@[simp] theorem State.mem_dispatch (s : State) (vec : Byte) :
    (s.dispatch vec).mem = ((s.push8 s.pc).push8 s.flagsByte).mem := by simp [State.dispatch]
@[simp] theorem State.timer_dispatch (s : State) (vec : Byte) :
    (s.dispatch vec).timer = s.timer := by simp [State.dispatch]
@[simp] theorem State.sio_dispatch (s : State) (vec : Byte) :
    (s.dispatch vec).sio = s.sio := by simp [State.dispatch]
@[simp] theorem State.console_dispatch (s : State) (vec : Byte) :
    (s.dispatch vec).console = s.console := by simp [State.dispatch]
@[simp] theorem State.pio_dispatch (s : State) (vec : Byte) :
    (s.dispatch vec).pio = s.pio := by simp [State.dispatch]
@[simp] theorem State.harness_dispatch (s : State) (vec : Byte) :
    (s.dispatch vec).harness = s.harness := by simp [State.dispatch]
@[simp] theorem State.freeCount_dispatch (s : State) (vec : Byte) :
    (s.dispatch vec).freeCount = s.freeCount := by simp [State.dispatch]
@[simp] theorem State.reg_dispatch (s : State) (vec : Byte) (q : Reg) :
    (s.dispatch vec).reg q = if q = .sp then s.sp - 1#8 - 1#8 else s.reg q := by cases q <;> simp [State.reg]

/-! ### writeAluFlags: an ALU result's flags -/

@[simp] theorem State.g0_writeAluFlags (s : State) (r : AluResult) :
    (s.writeAluFlags r).g0 = s.g0 := rfl
@[simp] theorem State.g1_writeAluFlags (s : State) (r : AluResult) :
    (s.writeAluFlags r).g1 = s.g1 := rfl
@[simp] theorem State.g2_writeAluFlags (s : State) (r : AluResult) :
    (s.writeAluFlags r).g2 = s.g2 := rfl
@[simp] theorem State.sp_writeAluFlags (s : State) (r : AluResult) :
    (s.writeAluFlags r).sp = s.sp := rfl
@[simp] theorem State.pc_writeAluFlags (s : State) (r : AluResult) :
    (s.writeAluFlags r).pc = s.pc := rfl
@[simp] theorem State.flagC_writeAluFlags (s : State) (r : AluResult) :
    (s.writeAluFlags r).flagC = r.c := rfl
@[simp] theorem State.flagS_writeAluFlags (s : State) (r : AluResult) :
    (s.writeAluFlags r).flagS = r.s := rfl
@[simp] theorem State.flagZ_writeAluFlags (s : State) (r : AluResult) :
    (s.writeAluFlags r).flagZ = r.z := rfl
@[simp] theorem State.ie_writeAluFlags (s : State) (r : AluResult) :
    (s.writeAluFlags r).ie = s.ie := rfl
@[simp] theorem State.run_writeAluFlags (s : State) (r : AluResult) :
    (s.writeAluFlags r).run = s.run := rfl
@[simp] theorem State.error_writeAluFlags (s : State) (r : AluResult) :
    (s.writeAluFlags r).error = s.error := rfl
@[simp] theorem State.mem_writeAluFlags (s : State) (r : AluResult) :
    (s.writeAluFlags r).mem = s.mem := rfl
@[simp] theorem State.timer_writeAluFlags (s : State) (r : AluResult) :
    (s.writeAluFlags r).timer = s.timer := rfl
@[simp] theorem State.sio_writeAluFlags (s : State) (r : AluResult) :
    (s.writeAluFlags r).sio = s.sio := rfl
@[simp] theorem State.console_writeAluFlags (s : State) (r : AluResult) :
    (s.writeAluFlags r).console = s.console := rfl
@[simp] theorem State.pio_writeAluFlags (s : State) (r : AluResult) :
    (s.writeAluFlags r).pio = s.pio := rfl
@[simp] theorem State.harness_writeAluFlags (s : State) (r : AluResult) :
    (s.writeAluFlags r).harness = s.harness := rfl
@[simp] theorem State.freeCount_writeAluFlags (s : State) (r : AluResult) :
    (s.writeAluFlags r).freeCount = s.freeCount := rfl
@[simp] theorem State.reg_writeAluFlags (s : State) (r : AluResult) (q : Reg) :
    (s.writeAluFlags r).reg q = s.reg q := by cases q <;> rfl
@[simp] theorem State.readMem_writeAluFlags (s : State) (r : AluResult) (k : Byte) :
    (s.writeAluFlags r).readMem k = s.readMem k := rfl

/-! ### timerAdvance: the timer advanced (`60_exceptions.md` R330) -/

@[simp] theorem State.g0_timerAdvance (s : State) (n : Nat) :
    (s.timerAdvance n).g0 = s.g0 := rfl
@[simp] theorem State.g1_timerAdvance (s : State) (n : Nat) :
    (s.timerAdvance n).g1 = s.g1 := rfl
@[simp] theorem State.g2_timerAdvance (s : State) (n : Nat) :
    (s.timerAdvance n).g2 = s.g2 := rfl
@[simp] theorem State.sp_timerAdvance (s : State) (n : Nat) :
    (s.timerAdvance n).sp = s.sp := rfl
@[simp] theorem State.pc_timerAdvance (s : State) (n : Nat) :
    (s.timerAdvance n).pc = s.pc := rfl
@[simp] theorem State.flagC_timerAdvance (s : State) (n : Nat) :
    (s.timerAdvance n).flagC = s.flagC := rfl
@[simp] theorem State.flagS_timerAdvance (s : State) (n : Nat) :
    (s.timerAdvance n).flagS = s.flagS := rfl
@[simp] theorem State.flagZ_timerAdvance (s : State) (n : Nat) :
    (s.timerAdvance n).flagZ = s.flagZ := rfl
@[simp] theorem State.ie_timerAdvance (s : State) (n : Nat) :
    (s.timerAdvance n).ie = s.ie := rfl
@[simp] theorem State.run_timerAdvance (s : State) (n : Nat) :
    (s.timerAdvance n).run = s.run := rfl
@[simp] theorem State.error_timerAdvance (s : State) (n : Nat) :
    (s.timerAdvance n).error = s.error := rfl
@[simp] theorem State.mem_timerAdvance (s : State) (n : Nat) :
    (s.timerAdvance n).mem = s.mem := rfl
@[simp] theorem State.timer_timerAdvance (s : State) (n : Nat) :
    (s.timerAdvance n).timer = Timer.advance n s.timer := rfl
@[simp] theorem State.sio_timerAdvance (s : State) (n : Nat) :
    (s.timerAdvance n).sio = s.sio := rfl
@[simp] theorem State.console_timerAdvance (s : State) (n : Nat) :
    (s.timerAdvance n).console = s.console := rfl
@[simp] theorem State.pio_timerAdvance (s : State) (n : Nat) :
    (s.timerAdvance n).pio = s.pio := rfl
@[simp] theorem State.harness_timerAdvance (s : State) (n : Nat) :
    (s.timerAdvance n).harness = s.harness := rfl
@[simp] theorem State.freeCount_timerAdvance (s : State) (n : Nat) :
    (s.timerAdvance n).freeCount = s.freeCount := rfl
@[simp] theorem State.reg_timerAdvance (s : State) (n : Nat) (q : Reg) :
    (s.timerAdvance n).reg q = s.reg q := by cases q <;> rfl
@[simp] theorem State.readMem_timerAdvance (s : State) (n : Nat) (k : Byte) :
    (s.timerAdvance n).readMem k = s.readMem k := rfl

/-! ### The stack -/

/-- A byte read after a push. -/
theorem State.readMem_push8 (s : State) (v b : Byte) :
    (s.push8 v).readMem b =
      if b = s.sp - 1#8 ∧ s.sp - 1#8 < Config.romStart then v else s.readMem b := by
  unfold State.push8
  rw [State.readMem_writeMem, State.readMem_setReg]

@[simp] theorem State.pop8_fst (s : State) : s.pop8.1 = s.readMem s.sp := rfl
@[simp] theorem State.pop8_snd (s : State) : s.pop8.2 = s.setReg .sp (s.sp + 1#8) := rfl

/-! ### Interrupts -/

/-- A byte read after a dispatch: the frame's two cells, unless ROM dropped them
(`60_exceptions.md` R321, R327), and every other cell as before. -/
theorem State.readMem_dispatch (s : State) (vec b : Byte) :
    (s.dispatch vec).readMem b =
      if b = s.sp - 1#8 - 1#8 ∧ s.sp - 1#8 - 1#8 < Config.romStart then s.flagsByte
      else if b = s.sp - 1#8 ∧ s.sp - 1#8 < Config.romStart then s.pc else s.readMem b := by
  have h : (s.dispatch vec).readMem b = ((s.push8 s.pc).push8 s.flagsByte).readMem b := by
    simp only [State.readMem, State.mem_dispatch]
  rw [h, State.readMem_push8, State.readMem_push8, State.sp_push8]

/-- What the arbiter does: nothing, or one dispatch of a requesting source with `IE` set. -/
theorem State.arbitrate_cases (s : State) :
    s.arbitrate = s ∨
    (s.ie = true ∧ s.timer.pending = true ∧
      s.arbitrate =
        (s.setTimer { s.timer with pending := false }).dispatch Config.vecTimer) ∨
    (s.ie = true ∧ s.rxRequest = true ∧ s.arbitrate = s.dispatch Config.vecRx) ∨
    (s.ie = true ∧ s.txRequest = true ∧ s.arbitrate = s.dispatch Config.vecTx) ∨
    (s.ie = true ∧ s.console.pending = true ∧
      s.arbitrate =
        (s.setConsole { s.console with pending := false }).dispatch Config.vecConsole) := by
  unfold State.arbitrate
  split
  · split
    · exact .inr (.inl ⟨‹_›, ‹_›, rfl⟩)
    · split
      · exact .inr (.inr (.inl ⟨‹_›, ‹_›, rfl⟩))
      · split
        · exact .inr (.inr (.inr (.inl ⟨‹_›, ‹_›, rfl⟩)))
        · split
          · exact .inr (.inr (.inr (.inr ⟨‹_›, ‹_›, rfl⟩)))
          · exact .inl rfl
  · exact .inl rfl

/-- With `IE` clear the arbiter does nothing (`60_exceptions.md` R310). -/
theorem State.arbitrate_of_ie_false (s : State) (h : s.ie = false) : s.arbitrate = s := by
  simp [State.arbitrate, h]

/-! ### ALU results -/

/-- An ALU result written is its flags and its value. -/
theorem State.writeAlu_eq (s : State) (gr : Reg) (r : AluResult) :
    s.writeAlu gr r = (s.setFlags r.c r.s r.z).setReg gr r.value := rfl

@[simp] theorem aluWithCarry_value (c : Bool) (v : Byte) : (aluWithCarry c v).value = v := rfl
@[simp] theorem aluWithCarry_c (c : Bool) (v : Byte) : (aluWithCarry c v).c = c := rfl
@[simp] theorem aluWithCarry_s (c : Bool) (v : Byte) : (aluWithCarry c v).s = signOf v := rfl
@[simp] theorem aluWithCarry_z (c : Bool) (v : Byte) : (aluWithCarry c v).z = zeroOf v := rfl

/-! ### Operands -/

/-- There is an effective address exactly for the address modes (`40_execution_cycle.md` R133). -/
theorem State.ea_isSome (s : State) (xr : XR) (d : Byte) : (s.ea xr d).isSome = xr.isAddress := by
  cases xr <;> rfl

/-- An address mode has an effective address. -/
theorem State.ea_of_isAddress (s : State) {xr : XR} (d : Byte) (h : xr.isAddress = true) :
    ∃ a, s.ea xr d = some a := Option.isSome_iff_exists.mp (by rw [State.ea_isSome, h])

/-- The operand of an address mode is the byte there (`40_execution_cycle.md` R134). -/
theorem State.operand_of_ea (s : State) {xr : XR} {d a : Byte} (h : s.ea xr d = some a) :
    s.operand xr d = s.readMem a := by
  simp [State.operand, h]

@[simp] theorem State.operand_imm (s : State) (d : Byte) : s.operand .imm d = d := rfl

/-! ### Jumps -/

/-- A jump with an address mode writes `PC` or nothing (`44_branch_call.md` R180). -/
theorem State.jumpIf_of_ea (s : State) (c : Bool) {xr : XR} {d t : Byte} (h : s.ea xr d = some t) :
    s.jumpIf c xr d = if c then s.setPc t else s := by
  simp [State.jumpIf, h]

/-! ### Ports -/

/-- What a port read can change: `rx_full` and `tmr_elapsed`, which it clears (`45_io_ports.md`
R234). -/
theorem State.portIn_snd_cases (s : State) (p : Byte) :
    (s.portIn p).2 = s ∨
    (p.toNat = 2 ∧ (s.portIn p).2 = s.setSio { s.sio with rxFull := false }) ∨
    (p.toNat = 5 ∧ (s.portIn p).2 = s.setTimer { s.timer with elapsed := false }) := by
  unfold State.portIn
  split <;> simp_all

/-- What a port write can change: one peripheral's registers (`45_io_ports.md` R234). -/
theorem State.portOut_cases (s : State) (p v : Byte) :
    s.portOut p v = s ∨ (∃ x : Pio, s.portOut p v = s.setPio x) ∨
    (s.portOut p v = s.setSio { s.sio with txData := v, txEmpty := false }) ∨
    (s.portOut p v = s.setSio { s.sio with txIe := v.getLsbD 7, rxIe := v.getLsbD 6 }) ∨
    (s.portOut p v = s.setTimer { s.timer with period := v }) ∨
    (s.portOut p v = s.setTimer (s.timer.writeControl v)) ∨
    (s.portOut p v = s.setConsole { s.console with ie := v.getLsbD 0 }) := by
  unfold State.portOut
  split
  · exact .inr (.inl ⟨_, rfl⟩)
  · exact .inr (.inl ⟨_, rfl⟩)
  · exact .inr (.inr (.inl rfl))
  · exact .inr (.inr (.inr (.inl rfl)))
  · exact .inr (.inr (.inr (.inr (.inl rfl))))
  · exact .inr (.inr (.inr (.inr (.inr (.inl rfl)))))
  · exact .inr (.inr (.inr (.inr (.inr (.inr rfl)))))
  · exact .inr (.inl ⟨_, rfl⟩)
  · exact .inl rfl
  · exact .inl rfl
  · exact .inl rfl
  · exact .inl rfl
  · exact .inr (.inl ⟨_, rfl⟩)
  · exact .inl rfl
  · exact .inl rfl
  · exact .inl rfl

@[simp] theorem Timer.acc_writeControl (t : Timer) (v : Byte) : (t.writeControl v).acc = t.acc := by
  unfold Timer.writeControl; split <;> rfl
@[simp] theorem Timer.pending_writeControl (t : Timer) (v : Byte) :
    (t.writeControl v).pending = t.pending := by
  unfold Timer.writeControl; split <;> rfl
@[simp] theorem Timer.period_writeControl (t : Timer) (v : Byte) :
    (t.writeControl v).period = t.period := by
  unfold Timer.writeControl; split <;> rfl

/-! ### The timer -/

@[simp] theorem Timer.acc_tick (t : Timer) : t.tick.acc = t.acc := by
  unfold Timer.tick; split <;> rfl
@[simp] theorem Timer.period_tick (t : Timer) : t.tick.period = t.period := by
  unfold Timer.tick; split <;> rfl
@[simp] theorem Timer.enable_tick (t : Timer) : t.tick.enable = t.enable := by
  unfold Timer.tick; split <;> rfl
@[simp] theorem Timer.ie_tick (t : Timer) : t.tick.ie = t.ie := by
  unfold Timer.tick; split <;> rfl

/-- Whatever it was, the accumulator is below a tick after an advance. -/
theorem Timer.acc_advance_lt (n : Nat) (t : Timer) :
    (Timer.advance n t).acc < Config.timerTickStates := by
  unfold Timer.advance
  split
  · assumption
  · split
    · rw [Timer.acc_tick]; exact Nat.zero_lt_succ _
    · exact Nat.zero_lt_succ _

/-- No instruction consumes more than 4 states (`40_execution_cycle.md` R141). -/
theorem statesOf_le (i : Instr) : statesOf i ≤ 4 := by
  cases i <;> simp [statesOf]

/-- The account changes the quantum in progress and nothing else. -/
theorem State.accountStates_eq (n : Nat) (s : State) :
    s.accountStates n = s.setHarness
      { s.harness with wait := s.harness.wait.map fun w => { w with acc := w.acc + n } } := by
  unfold State.accountStates
  cases h : s.harness.wait with
  | none => simp only [State.setHarness, Option.map_none]; rw [← h]
  | some w => rfl

/-- How a step ends: in error, stopped, or with the arbiter's answer (`60_exceptions.md` R316). -/
theorem State.finishStep_cases (n : Nat) (s : State) :
    (s.error = true ∧ s.finishStep n = s) ∨
    (s.error = false ∧ s.run = false ∧
      s.finishStep n = (s.timerAdvance n).accountStates n) ∨
    (s.error = false ∧ s.run = true ∧
      s.finishStep n = ((s.timerAdvance n).accountStates n).arbitrate) := by
  have hr : ((s.timerAdvance n).accountStates n).run = s.run := by
    rw [State.accountStates_eq]; rfl
  unfold State.finishStep
  cases he : s.error
  · cases h : s.run <;> simp [hr, h]
  · simp

/-! ### The host -/

/-- What a transmit service does. -/
theorem State.drainTx_cases (s : State) :
    (s.sio.txEmpty = true ∧ s.drainTx = s) ∨
    (s.sio.txEmpty = false ∧
      s.drainTx = (s.setSio { s.sio with txEmpty := true }).setHarness
        (s.harness.print (.byte .serial s.sio.txData))) := by
  unfold State.drainTx
  cases s.sio.txEmpty <;> simp

/-- What a receive service does. -/
theorem State.deliverRx_cases (s : State) :
    ((s.sio.rxFull = true ∨ s.harness.rxQueue = []) ∧ s.deliverRx = s) ∨
    (∃ b q, s.sio.rxFull = false ∧ s.harness.rxQueue = b :: q ∧
      s.deliverRx = (s.setSio { s.sio with rxData := b, rxFull := true }).setHarness
        { s.harness with rxQueue := q }) := by
  unfold State.deliverRx
  cases hf : s.sio.rxFull with
  | true => simp
  | false =>
    cases hq : s.harness.rxQueue with
    | nil => simp
    | cons b q => exact .inr ⟨b, q, rfl, rfl, by simp⟩

/-- An image load writes memory and nothing else. -/
theorem State.loadBytes_eq (s : State) (a : Byte) (bs : List Byte) :
    s.loadBytes a bs = { s with mem := (s.loadBytes a bs).mem } := by
  induction bs generalizing s a with
  | nil => rfl
  | cons b bs ih =>
    unfold State.loadBytes
    rw [ih]
    rfl

/-- An image load keeps the canonical form of memory. -/
theorem State.wf_loadBytes (s : State) (a : Byte) (bs : List Byte) (h : s.mem.wf = true) :
    (s.loadBytes a bs).mem.wf = true := by
  induction bs generalizing s a with
  | nil => exact h
  | cons b bs ih => exact ih _ _ (Memory.wf_write a b h)

/-! ### The step -/

/-- What a CPU step can do (`40_execution_cycle.md` R130). -/
theorem State.cpuStep_cases {s t : State} (h : s.cpuStep = .next t) :
    ((∃ e, s.fetch = .error e) ∧ t = s.raiseError) ∨
    (∃ i u, s.fetch = .ok i ∧ exec i (s.advancePc i.size) = .next u ∧
      t = u.finishStep (statesOf i)) := by
  unfold State.cpuStep at h
  split at h
  · next e he => exact .inl ⟨⟨e, he⟩, by cases h; rfl⟩
  · next i hi =>
    split at h
    · next u hu => exact .inr ⟨i, u, hi, hu, by cases h; rfl⟩
    · cases h
    · cases h

/-- What a step of the whole machine can do: the CPU moves, the host ends a quantum, the host consumes
an event, or the machine is stopped with no script. -/
theorem State.turn_cases {s t : State} (h : s.turn = .next t) :
    s.error = false ∧
    ((s.run = true ∧ s.cpuStep = .next t ∧
        ((∃ w, s.harness.wait = some w ∧ w.acc < Config.serialUnitStates) ∨
          (s.harness.wait = none ∧ s.harness.events = []))) ∨
      (∃ w, s.harness.wait = some w ∧ t = s.endQuantum w) ∨
      (∃ e rest, s.harness.wait = none ∧ s.harness.events = e :: rest ∧
        (s.setHarness { s.harness with events := rest }).applyEvent e = .next t) ∨
      (s.run = false ∧ s.harness.wait = none ∧ s.harness.events = [] ∧ t = s)) := by
  unfold State.turn at h
  split at h
  · cases h
  · next he =>
    refine ⟨by simpa using he, ?_⟩
    split at h
    · next w hw =>
      split at h
      · next hc =>
        simp only [Bool.and_eq_true, decide_eq_true_eq] at hc
        exact .inl ⟨hc.1, h, .inl ⟨w, hw, hc.2⟩⟩
      · exact .inr (.inl ⟨w, hw, by cases h; rfl⟩)
    · next hw =>
      split at h
      · next e rest hev => exact .inr (.inr (.inl ⟨e, rest, hw, hev, h⟩))
      · next hev =>
        split at h
        · next hr => exact .inl ⟨hr, h, .inr ⟨hw, hev⟩⟩
        · next hr => exact .inr (.inr (.inr ⟨by simpa using hr, hw, hev, by cases h; rfl⟩))

end Sys2Proof.Machine
end

