-- ==== Sys2Proof/Laws/Exec.lean ====
section
/-! SUPPORT. What an instruction can do, said once: every meaning answers one of these next states. -/

namespace Sys2Proof.Machine

/-- The next states an instruction's meaning can answer. -/
inductive Effect (i : Instr) (s : State) : State → Prop
  /-- nothing: `NO`, a jump not taken -/
  | keep : Effect i s s
  /-- a register: `LD` -/
  | reg (gr : Reg) (v : Byte) : Effect i s (s.setReg gr v)
  /-- a byte of memory: `ST` -/
  | store (a v : Byte) : Effect i s (s.writeMem a v)
  /-- the flags and a register: arithmetic, logic, shifts -/
  | alu (gr : Reg) (r : AluResult) : Effect i s (s.writeAlu gr r)
  /-- the flags: `CMP` -/
  | flags (r : AluResult) : Effect i s (s.writeAluFlags r)
  /-- `PC`: a jump taken -/
  | jump (t : Byte) : Effect i s (s.setPc t)
  /-- `CALL` -/
  | call (t : Byte) : Effect i s ((s.push8 s.pc).setPc t)
  /-- `RET` -/
  | ret (h : i = .ret) : Effect i s ((s.setReg .sp (s.sp + 1#8)).setPc (s.readMem s.sp))
  /-- `PUSH` -/
  | push (v : Byte) : Effect i s ((s.setReg .sp (s.sp - 1#8)).writeMem (s.sp - 1#8) v)
  /-- `POP` -/
  | pop (gr : Reg) : Effect i s ((s.setReg .sp (s.sp + 1#8)).setReg gr (s.readMem s.sp))
  /-- `IN` -/
  | inp (gr : Reg) (p : Byte) (h : i = .inp gr p) (hp : portInRange p = true) :
      Effect i s ((s.portIn p).2.setReg gr (s.portIn p).1)
  /-- `OUT` -/
  | out (gr : Reg) (p : Byte) (h : i = .out gr p) (hp : portInRange p = true) :
      Effect i s (s.portOut p (s.reg gr))
  /-- `EI`, `DI` -/
  | ie (b : Bool) (h : i = if b then .ei else .di) : Effect i s (s.setIe b)
  /-- `RETI` -/
  | reti (h : i = .reti) : Effect i s s.returnFromInterrupt
  /-- `HALT` -/
  | halt (h : i = .halt) : Effect i s (s.setRun false)
  /-- the error of a port number out of range -/
  | portError (gr : Reg) (p : Byte) (h : i = .inp gr p ∨ i = .out gr p)
      (hp : portInRange p = false) : Effect i s s.raiseError
  /-- the error of a term that is no instruction -/
  | illFormed (h : i.wf = false) : Effect i s s.raiseError

theorem State.ea_none (s : State) {xr : XR} {d : Byte} (h : s.ea xr d = none) :
    xr.isAddress = false := by
  rw [← State.ea_isSome s xr d, h]; rfl

/-- A jump's effect. -/
theorem State.jumpIf_effect {i : Instr} (s : State) (c : Bool) (xr : XR) (d : Byte)
    (hi : xr.isAddress = false → i.wf = false) : Effect i s (s.jumpIf c xr d) := by
  unfold State.jumpIf
  split
  · split
    · exact .jump _
    · exact .keep
  · next h => exact .illFormed (hi (s.ea_none h))

/-- Every meaning answers a next state, and that state is an effect of its instruction. -/
theorem exec_effect (i : Instr) (s : State) : ∃ t, exec i s = .next t ∧ Effect i s t := by
  cases i with
  | no => exact ⟨_, rfl, .keep⟩
  | ld gr xr d => exact ⟨_, rfl, .reg _ _⟩
  | st gr xr d =>
    simp only [exec, execSt]
    cases h : s.ea xr d with
    | some a => exact ⟨_, rfl, .store _ _⟩
    | none => exact ⟨_, rfl, .illFormed (s.ea_none h)⟩
  | add gr xr d => exact ⟨_, rfl, .alu _ _⟩
  | sub gr xr d => exact ⟨_, rfl, .alu _ _⟩
  | cmp gr xr d => exact ⟨_, rfl, .flags _⟩
  | and gr xr d => exact ⟨_, rfl, .alu _ _⟩
  | or gr xr d => exact ⟨_, rfl, .alu _ _⟩
  | xor gr xr d => exact ⟨_, rfl, .alu _ _⟩
  | shla gr => exact ⟨_, rfl, .alu _ _⟩
  | shll gr => exact ⟨_, rfl, .alu _ _⟩
  | shra gr => exact ⟨_, rfl, .alu _ _⟩
  | shrl gr => exact ⟨_, rfl, .alu _ _⟩
  | jmp xr d => exact ⟨_, rfl, s.jumpIf_effect _ xr d id⟩
  | jz xr d => exact ⟨_, rfl, s.jumpIf_effect _ xr d id⟩
  | jc xr d => exact ⟨_, rfl, s.jumpIf_effect _ xr d id⟩
  | jm xr d => exact ⟨_, rfl, s.jumpIf_effect _ xr d id⟩
  | call xr d =>
    simp only [exec, execCall]
    cases h : s.ea xr d with
    | some a => exact ⟨_, rfl, .call _⟩
    | none => exact ⟨_, rfl, .illFormed (s.ea_none h)⟩
  | jnz xr d => exact ⟨_, rfl, s.jumpIf_effect _ xr d id⟩
  | jnc xr d => exact ⟨_, rfl, s.jumpIf_effect _ xr d id⟩
  | jnm xr d => exact ⟨_, rfl, s.jumpIf_effect _ xr d id⟩
  | inp gr p =>
    simp only [exec, execIn]
    cases h : portInRange p with
    | true => exact ⟨_, rfl, .inp gr p rfl h⟩
    | false => exact ⟨_, rfl, .portError gr p (.inl rfl) h⟩
  | out gr p =>
    simp only [exec, execOut]
    cases h : portInRange p with
    | true => exact ⟨_, rfl, .out gr p rfl h⟩
    | false => exact ⟨_, rfl, .portError gr p (.inr rfl) h⟩
  | push gr => exact ⟨_, rfl, .push _⟩
  | pop gr => exact ⟨_, rfl, .pop _⟩
  | ei => exact ⟨_, rfl, .ie true rfl⟩
  | di => exact ⟨_, rfl, .ie false rfl⟩
  | ret => exact ⟨_, rfl, .ret rfl⟩
  | reti => exact ⟨_, rfl, .reti rfl⟩
  | halt => exact ⟨_, rfl, .halt rfl⟩

/-- The inversion of `exec`. -/
theorem effect_of_exec {i : Instr} {s t : State} (h : exec i s = .next t) : Effect i s t := by
  obtain ⟨u, hu, he⟩ := exec_effect i s
  rw [hu] at h
  cases h
  exact he

end Sys2Proof.Machine
end

