-- ==== Sys2Proof/Laws/PerInstr.lean ====
section
/-! SUPPORT. The laws that are made per instruction. -/

namespace Sys2Proof.Laws

/-- An instruction's encoding has its length, which is 1 or 2 (`30_encoding.md` R90, R99). -/
def EncodeSize.Statement (i : Instr) : Prop :=
  (encode i).length = i.size ∧ (i.size = 1 ∨ i.size = 2)

theorem EncodeSize.no : EncodeSize.Statement .no :=
    ⟨rfl, .inl rfl⟩
theorem EncodeSize.ld (gr : Reg) (xr : XR) (d : Byte) : EncodeSize.Statement (.ld gr xr d) :=
    ⟨rfl, .inr rfl⟩
theorem EncodeSize.st (gr : Reg) (xr : XR) (d : Byte) : EncodeSize.Statement (.st gr xr d) :=
    ⟨rfl, .inr rfl⟩
theorem EncodeSize.add (gr : Reg) (xr : XR) (d : Byte) : EncodeSize.Statement (.add gr xr d) :=
    ⟨rfl, .inr rfl⟩
theorem EncodeSize.sub (gr : Reg) (xr : XR) (d : Byte) : EncodeSize.Statement (.sub gr xr d) :=
    ⟨rfl, .inr rfl⟩
theorem EncodeSize.cmp (gr : Reg) (xr : XR) (d : Byte) : EncodeSize.Statement (.cmp gr xr d) :=
    ⟨rfl, .inr rfl⟩
theorem EncodeSize.and (gr : Reg) (xr : XR) (d : Byte) : EncodeSize.Statement (.and gr xr d) :=
    ⟨rfl, .inr rfl⟩
theorem EncodeSize.or (gr : Reg) (xr : XR) (d : Byte) : EncodeSize.Statement (.or gr xr d) :=
    ⟨rfl, .inr rfl⟩
theorem EncodeSize.xor (gr : Reg) (xr : XR) (d : Byte) : EncodeSize.Statement (.xor gr xr d) :=
    ⟨rfl, .inr rfl⟩
theorem EncodeSize.shla (gr : Reg) : EncodeSize.Statement (.shla gr) :=
    ⟨rfl, .inl rfl⟩
theorem EncodeSize.shll (gr : Reg) : EncodeSize.Statement (.shll gr) :=
    ⟨rfl, .inl rfl⟩
theorem EncodeSize.shra (gr : Reg) : EncodeSize.Statement (.shra gr) :=
    ⟨rfl, .inl rfl⟩
theorem EncodeSize.shrl (gr : Reg) : EncodeSize.Statement (.shrl gr) :=
    ⟨rfl, .inl rfl⟩
theorem EncodeSize.jmp (xr : XR) (d : Byte) : EncodeSize.Statement (.jmp xr d) :=
    ⟨rfl, .inr rfl⟩
theorem EncodeSize.jz (xr : XR) (d : Byte) : EncodeSize.Statement (.jz xr d) :=
    ⟨rfl, .inr rfl⟩
theorem EncodeSize.jc (xr : XR) (d : Byte) : EncodeSize.Statement (.jc xr d) :=
    ⟨rfl, .inr rfl⟩
theorem EncodeSize.jm (xr : XR) (d : Byte) : EncodeSize.Statement (.jm xr d) :=
    ⟨rfl, .inr rfl⟩
theorem EncodeSize.call (xr : XR) (d : Byte) : EncodeSize.Statement (.call xr d) :=
    ⟨rfl, .inr rfl⟩
theorem EncodeSize.jnz (xr : XR) (d : Byte) : EncodeSize.Statement (.jnz xr d) :=
    ⟨rfl, .inr rfl⟩
theorem EncodeSize.jnc (xr : XR) (d : Byte) : EncodeSize.Statement (.jnc xr d) :=
    ⟨rfl, .inr rfl⟩
theorem EncodeSize.jnm (xr : XR) (d : Byte) : EncodeSize.Statement (.jnm xr d) :=
    ⟨rfl, .inr rfl⟩
theorem EncodeSize.inp (gr : Reg) (port : Byte) : EncodeSize.Statement (.inp gr port) :=
    ⟨rfl, .inr rfl⟩
theorem EncodeSize.out (gr : Reg) (port : Byte) : EncodeSize.Statement (.out gr port) :=
    ⟨rfl, .inr rfl⟩
theorem EncodeSize.push (gr : Reg) : EncodeSize.Statement (.push gr) :=
    ⟨rfl, .inl rfl⟩
theorem EncodeSize.pop (gr : Reg) : EncodeSize.Statement (.pop gr) :=
    ⟨rfl, .inl rfl⟩
theorem EncodeSize.ei : EncodeSize.Statement .ei :=
    ⟨rfl, .inl rfl⟩
theorem EncodeSize.di : EncodeSize.Statement .di :=
    ⟨rfl, .inl rfl⟩
theorem EncodeSize.ret : EncodeSize.Statement .ret :=
    ⟨rfl, .inl rfl⟩
theorem EncodeSize.reti : EncodeSize.Statement .reti :=
    ⟨rfl, .inl rfl⟩
theorem EncodeSize.halt : EncodeSize.Statement .halt :=
    ⟨rfl, .inl rfl⟩

end Sys2Proof.Laws
end

