-- ==== Sys2Proof/Tests/Slice0.lean ====
section
/-! SUPPORT. Tests: the well-formedness smoke, decoding words written out from `30_encoding.md` R95,
one step of each instruction from `95_test_vectors.md`, and a witness for every statement that has
hypotheses. -/

namespace Sys2Proof.Tests

open Sys2Proof.Machine Sys2Proof.Statements

/-! ### Well-formedness: the ill-formed shapes are refused (R97) -/

theorem test_wf_refuses_st : ¬ Instr.WellFormed (.st .g0 .imm 0x30#8) := by decide
theorem test_wf_refuses_jmp : ¬ Instr.WellFormed (.jmp .imm 0x40#8) := by decide
theorem test_wf_refuses_jz : ¬ Instr.WellFormed (.jz .imm 0x40#8) := by decide
theorem test_wf_refuses_jc : ¬ Instr.WellFormed (.jc .imm 0x40#8) := by decide
theorem test_wf_refuses_jm : ¬ Instr.WellFormed (.jm .imm 0x40#8) := by decide
theorem test_wf_refuses_call : ¬ Instr.WellFormed (.call .imm 0x40#8) := by decide
theorem test_wf_refuses_jnz : ¬ Instr.WellFormed (.jnz .imm 0x40#8) := by decide
theorem test_wf_refuses_jnc : ¬ Instr.WellFormed (.jnc .imm 0x40#8) := by decide
theorem test_wf_refuses_jnm : ¬ Instr.WellFormed (.jnm .imm 0x40#8) := by decide

/-! ### Decoding: one word per instruction, its bits written from the table of R95 -/

theorem test_decode_no : decode [0x00#8] = .ok (.no, []) := rfl
theorem test_decode_ld : decode [0x13#8, 0x05#8] = .ok (.ld .g0 .imm 0x05#8, []) := rfl
theorem test_decode_st : decode [0x26#8, 0x30#8] = .ok (.st .g1 .g2 0x30#8, []) := rfl
theorem test_decode_add : decode [0x37#8, 0x01#8] = .ok (.add .g1 .imm 0x01#8, []) := rfl
theorem test_decode_sub : decode [0x49#8, 0x30#8] = .ok (.sub .g2 .g1 0x30#8, []) := rfl
theorem test_decode_cmp : decode [0x50#8, 0xE0#8] = .ok (.cmp .g0 .direct 0xE0#8, []) := rfl
theorem test_decode_and : decode [0x6F#8, 0x40#8] = .ok (.and .sp .imm 0x40#8, []) := rfl
theorem test_decode_or : decode [0x74#8, 0x20#8] = .ok (.or .g1 .direct 0x20#8, []) := rfl
theorem test_decode_xor : decode [0x8A#8, 0x10#8] = .ok (.xor .g2 .g2 0x10#8, []) := rfl
theorem test_decode_shla : decode [0x90#8] = .ok (.shla .g0, []) := rfl
theorem test_decode_shll : decode [0x9D#8] = .ok (.shll .sp, []) := rfl
theorem test_decode_shra : decode [0x96#8] = .ok (.shra .g1, []) := rfl
theorem test_decode_shrl : decode [0x9B#8] = .ok (.shrl .g2, []) := rfl
theorem test_decode_jmp : decode [0xA1#8, 0x20#8] = .ok (.jmp .g1 0x20#8, []) := rfl
theorem test_decode_jz : decode [0xA6#8, 0x30#8] = .ok (.jz .g2 0x30#8, []) := rfl
theorem test_decode_jc : decode [0xA8#8, 0x40#8] = .ok (.jc .direct 0x40#8, []) := rfl
theorem test_decode_jm : decode [0xAC#8, 0x40#8] = .ok (.jm .direct 0x40#8, []) := rfl
theorem test_decode_call : decode [0xB1#8, 0x40#8] = .ok (.call .g1 0x40#8, []) := rfl
theorem test_decode_jnz : decode [0xB4#8, 0x04#8] = .ok (.jnz .direct 0x04#8, []) := rfl
theorem test_decode_jnc : decode [0xBA#8, 0x40#8] = .ok (.jnc .g2 0x40#8, []) := rfl
theorem test_decode_jnm : decode [0xBC#8, 0x40#8] = .ok (.jnm .direct 0x40#8, []) := rfl
theorem test_decode_inp : decode [0xCC#8, 0x02#8] = .ok (.inp .sp 0x02#8, []) := rfl
theorem test_decode_out : decode [0xC7#8, 0x03#8] = .ok (.out .g1 0x03#8, []) := rfl
theorem test_decode_push : decode [0xD8#8] = .ok (.push .g2, []) := rfl
theorem test_decode_pop : decode [0xDE#8] = .ok (.pop .sp, []) := rfl
theorem test_decode_ei : decode [0xE0#8] = .ok (.ei, []) := rfl
theorem test_decode_di : decode [0xE3#8] = .ok (.di, []) := rfl
theorem test_decode_ret : decode [0xEC#8] = .ok (.ret, []) := rfl
theorem test_decode_reti : decode [0xEF#8] = .ok (.reti, []) := rfl
theorem test_decode_halt : decode [0xFF#8] = .ok (.halt, []) := rfl

/-! ### Decoding: one illegal byte per line of R97 -/

theorem test_illegal_01 : decode [0x01#8, 0x00#8] = .error .illegalNo := rfl
theorem test_illegal_0F : decode [0x0F#8, 0x00#8] = .error .illegalNo := rfl
theorem test_illegal_23 : decode [0x23#8, 0x30#8] = .error .illegalStore := rfl
theorem test_illegal_AF : decode [0xAF#8, 0x40#8] = .error .illegalJump := rfl
theorem test_illegal_BF : decode [0xBF#8, 0x40#8] = .error .illegalCall := rfl
theorem test_illegal_C1 : decode [0xC1#8, 0x00#8] = .error .illegalPort := rfl
theorem test_illegal_CE : decode [0xCE#8, 0x00#8] = .error .illegalPort := rfl
theorem test_illegal_D1 : decode [0xD1#8, 0x00#8] = .error .illegalStack := rfl
theorem test_illegal_D3 : decode [0xD3#8, 0x00#8] = .error .illegalStack := rfl
theorem test_illegal_EB : decode [0xEB#8, 0x00#8] = .error .illegalSystem := rfl
theorem test_illegal_FE : decode [0xFE#8, 0x00#8] = .error .illegalHalt := rfl

/-! ### The host's entry: bit 0 is the least significant bit of the first byte -/

theorem test_table_word_two : decodeTableWord 16 0x0513 = some (.ld .g0 .imm 0x05#8) := by decide
theorem test_table_word_short : decodeTableWord 8 0x13 = some (.ld .g0 .imm 0x00#8) := by decide
theorem test_table_word_one : decodeTableWord 8 0xEF = some .reti := by decide
theorem test_table_word_illegal : decodeTableWord 8 0xA3 = none := by decide

/-! ### One step -/

/-- The reset state running, with bytes at an address and `PC` there. -/
def running (pc : Byte) (bs : List Byte) : State :=
  { State.reset.pokeBytes pc bs with pc := pc, run := true }

/-- What one step answers, seen through `f`. -/
def after {α : Type} (s : State) (f : State → α) : Option α :=
  match step s with
  | .next t => some (f t)
  | _ => none

/-- `95_test_vectors.md` 2.9 -/
theorem test_no :
    after (running 0x03#8 [0x00#8])
      (fun t => (t.pc, t.timer.acc)) = some (0x04#8, 2) := by decide

/-- `95_test_vectors.md` 2.1: `F0` + `20` = `10` -/
theorem test_ld_index_wraps :
    after { (running 0x00#8 [0x12#8, 0xF0#8]).pokeBytes 0x10#8 [0x5A#8] with g2 := 0x20#8 }
      (fun t => (t.g0, t.g2, t.pc)) = some (0x5A#8, 0x20#8, 0x02#8) := by decide

/-- `95_test_vectors.md` 2.1 -/
theorem test_ld_index_is_destination :
    after { (running 0x00#8 [0x15#8, 0x10#8]).pokeBytes 0x12#8 [0xAB#8] with g1 := 0x02#8 }
      (fun t => (t.g1, t.flagS)) = some (0xAB#8, false) := by decide

/-- `95_test_vectors.md` 2.1 -/
theorem test_st_indexed :
    after { running 0x00#8 [0x26#8, 0x30#8] with g1 := 0x55#8, g2 := 0x04#8 }
      (fun t => (t.readMem 0x34#8, t.pc, t.timer.acc)) = some (0x55#8, 0x02#8, 3) := by decide

/-- `95_test_vectors.md` 2.1: `D0` + `10` = `E0` -/
theorem test_st_rom_dropped :
    after { running 0x00#8 [0x21#8, 0xD0#8] with g0 := 0xAA#8, g1 := 0x10#8 }
      (fun t => (t.readMem 0xE0#8, t.error)) = some (0x1F#8, false) := by decide

/-- `95_test_vectors.md` 2.2 -/
theorem test_add_carry :
    after { running 0x00#8 [0x33#8, 0x01#8] with g0 := 0xFF#8 }
      (fun t => (t.g0, t.flagC, t.flagS, t.flagZ)) = some (0x00#8, true, false, true) := by decide

/-- `95_test_vectors.md` 2.2 -/
theorem test_add_index_is_destination :
    after { (running 0x00#8 [0x35#8, 0x00#8]).pokeBytes 0x20#8 [0x05#8] with g1 := 0x20#8 }
      (fun t => (t.g1, t.flagC)) = some (0x25#8, false) := by decide

/-- `95_test_vectors.md` 2.2 -/
theorem test_sub_borrow :
    after { running 0x00#8 [0x43#8, 0x20#8] with g0 := 0x10#8 }
      (fun t => (t.g0, t.flagC, t.flagS, t.flagZ)) = some (0xF0#8, true, true, false) := by decide

/-- `95_test_vectors.md` 2.2 -/
theorem test_sub_no_borrow :
    after { running 0x00#8 [0x43#8, 0x01#8] with g0 := 0x80#8 }
      (fun t => (t.g0, t.flagC, t.flagS, t.flagZ)) =
      some (0x7F#8, false, false, false) := by decide

/-- `95_test_vectors.md` 2.2 -/
theorem test_cmp_borrow :
    after { running 0x00#8 [0x57#8, 0xFF#8] with g1 := 0x00#8 }
      (fun t => (t.g1, t.flagC, t.flagS, t.flagZ)) = some (0x00#8, true, false, false) := by decide

/-- `95_test_vectors.md` 2.2 -/
theorem test_cmp_keeps_register :
    after { running 0x00#8 [0x50#8, 0xE0#8] with g0 := 0x1F#8 }
      (fun t => (t.g0, t.flagC, t.flagS, t.flagZ)) = some (0x1F#8, false, false, true) := by decide

/-- `95_test_vectors.md` 2.3 -/
theorem test_and :
    after { running 0x00#8 [0x63#8, 0x40#8] with g0 := 0xC0#8, flagC := true }
      (fun t => (t.g0, t.flagC, t.flagS, t.flagZ)) =
      some (0x40#8, false, false, false) := by decide

/-- `95_test_vectors.md` 2.3 -/
theorem test_or :
    after { running 0x00#8 [0x73#8, 0x80#8] with g0 := 0x01#8, flagC := true }
      (fun t => (t.g0, t.flagC, t.flagS, t.flagZ)) = some (0x81#8, false, true, false) := by decide

/-- `95_test_vectors.md` 2.3 -/
theorem test_xor :
    after { (running 0x00#8 [0x8A#8, 0x10#8]).pokeBytes 0x12#8 [0x03#8] with g2 := 0x02#8 }
      (fun t => (t.g2, t.flagC, t.flagS, t.flagZ)) =
      some (0x01#8, false, false, false) := by decide

/-- `95_test_vectors.md` 2.4 -/
theorem test_shla :
    after { running 0x00#8 [0x90#8] with g0 := 0xC1#8 }
      (fun t => (t.g0, t.flagC, t.flagS, t.flagZ)) = some (0x82#8, true, true, false) := by decide

/-- `95_test_vectors.md` 2.4 -/
theorem test_shll :
    after { running 0x00#8 [0x9D#8] with sp := 0x6E#8 }
      (fun t => (t.sp, t.flagC, t.flagS, t.flagZ)) = some (0xDC#8, false, true, false) := by decide

/-- `95_test_vectors.md` 2.4 -/
theorem test_shra :
    after { running 0x00#8 [0x92#8] with g0 := 0x81#8 }
      (fun t => (t.g0, t.flagC, t.flagS, t.flagZ)) = some (0xC0#8, true, true, false) := by decide

/-- `95_test_vectors.md` 2.4 -/
theorem test_shrl :
    after { running 0x00#8 [0x93#8] with g0 := 0x81#8 }
      (fun t => (t.g0, t.flagC, t.flagS, t.flagZ)) = some (0x40#8, true, false, false) := by decide

/-- `95_test_vectors.md` 2.5 -/
theorem test_jmp_wraps :
    after { running 0x10#8 [0xA2#8, 0xF0#8] with g2 := 0x20#8 }
      (fun t => (t.pc, t.timer.acc)) = some (0x10#8, 3) := by decide

/-- `95_test_vectors.md` 2.5 -/
theorem test_jz_taken :
    after { running 0x10#8 [0xA6#8, 0x30#8] with g2 := 0x05#8, flagZ := true }
      (fun t => t.pc) = some 0x35#8 := by decide

/-- `95_test_vectors.md` 2.5 -/
theorem test_jz_not_taken :
    after { running 0x10#8 [0xA6#8, 0x30#8] with g2 := 0x05#8 }
      (fun t => t.pc) = some 0x12#8 := by decide

/-- `95_test_vectors.md` 2.5 -/
theorem test_jc_taken :
    after { running 0x10#8 [0xA8#8, 0x40#8] with flagC := true }
      (fun t => t.pc) = some 0x40#8 := by decide

/-- `95_test_vectors.md` 2.5 -/
theorem test_jc_not_taken :
    after { running 0x10#8 [0xA8#8, 0x40#8] with flagS := true, flagZ := true }
      (fun t => t.pc) = some 0x12#8 := by decide

/-- `95_test_vectors.md` 2.5 -/
theorem test_jm_taken :
    after { running 0x10#8 [0xAC#8, 0x40#8] with flagS := true }
      (fun t => t.pc) = some 0x40#8 := by decide

/-- `95_test_vectors.md` 2.5 -/
theorem test_jm_not_taken :
    after { running 0x10#8 [0xAC#8, 0x40#8] with flagC := true, flagZ := true }
      (fun t => t.pc) = some 0x12#8 := by decide

/-- `95_test_vectors.md` 2.5 -/
theorem test_jnz_taken :
    after { running 0x10#8 [0xB4#8, 0x40#8] with flagC := true, flagS := true }
      (fun t => t.pc) = some 0x40#8 := by decide

/-- `95_test_vectors.md` 2.5 -/
theorem test_jnz_not_taken :
    after { running 0x10#8 [0xB4#8, 0x40#8] with flagZ := true }
      (fun t => t.pc) = some 0x12#8 := by decide

/-- `95_test_vectors.md` 2.5 -/
theorem test_jnc_taken :
    after { running 0x10#8 [0xB8#8, 0x40#8] with flagS := true, flagZ := true }
      (fun t => t.pc) = some 0x40#8 := by decide

/-- `95_test_vectors.md` 2.5 -/
theorem test_jnc_not_taken :
    after { running 0x10#8 [0xB8#8, 0x40#8] with flagC := true }
      (fun t => t.pc) = some 0x12#8 := by decide

/-- `95_test_vectors.md` 2.5 -/
theorem test_jnm_taken :
    after { running 0x10#8 [0xBC#8, 0x40#8] with flagC := true, flagZ := true }
      (fun t => t.pc) = some 0x40#8 := by decide

/-- `95_test_vectors.md` 2.5 -/
theorem test_jnm_not_taken :
    after { running 0x10#8 [0xBC#8, 0x40#8] with flagS := true }
      (fun t => t.pc) = some 0x12#8 := by decide

/-- `95_test_vectors.md` 2.6 -/
theorem test_call :
    after { running 0x10#8 [0xB1#8, 0x40#8] with sp := 0x80#8, g1 := 0x02#8 }
      (fun t => (t.sp, t.pc, t.readMem 0x7F#8)) = some (0x7F#8, 0x42#8, 0x12#8) := by decide

/-- `95_test_vectors.md` 2.6 -/
theorem test_call_rom_dropped :
    after { running 0x10#8 [0xB0#8, 0x40#8] with sp := 0xE1#8 }
      (fun t => (t.sp, t.readMem 0xE0#8)) = some (0xE0#8, 0x1F#8) := by decide

/-- `95_test_vectors.md` 2.6 -/
theorem test_ret :
    after { (running 0x50#8 [0xEC#8]).pokeBytes 0xDB#8 [0x12#8] with sp := 0xDB#8 }
      (fun t => (t.sp, t.pc)) = some (0xDC#8, 0x12#8) := by decide

/-- `95_test_vectors.md` 2.6 -/
theorem test_ret_from_rom :
    after { running 0x50#8 [0xEC#8] with sp := 0xFF#8 }
      (fun t => (t.sp, t.pc)) = some (0x00#8, 0xFF#8) := by decide

/-- `95_test_vectors.md` 2.7 -/
theorem test_in_status :
    after (running 0x00#8 [0xC0#8, 0x03#8])
      (fun t => (t.g0, t.timer.acc)) = some (0x80#8, 4) := by decide

/-- `95_test_vectors.md` 2.7 -/
theorem test_in_clears_elapsed :
    after { running 0x00#8 [0xC0#8, 0x05#8] with timer := { Timer.reset with elapsed := true } }
      (fun t => (t.g0, t.timer.elapsed)) = some (0x80#8, false) := by decide

/-- `95_test_vectors.md` 2.7 -/
theorem test_out_timer_control :
    after { running 0x00#8 [0xC3#8, 0x05#8] with
            g0 := 0x81#8
            timer := { Timer.reset with counter := 0x09#8, elapsed := true, acc := 100 } }
      (fun t => (t.timer.ie, t.timer.enable, t.timer.counter, t.timer.acc)) =
      some (true, true, 0x00#8, 103) := by decide

/-- `95_test_vectors.md` 2.7 -/
theorem test_out_port_range :
    after { running 0x00#8 [0xC3#8, 0x10#8] with g0 := 0xFF#8 }
      (fun t => (t.error, t.run, t.g0)) = some (true, false, 0xFF#8) := by decide

/-- `95_test_vectors.md` 2.8, decision D8 -/
theorem test_push_sp :
    after { running 0x00#8 [0xDC#8] with sp := 0xDC#8 }
      (fun t => (t.sp, t.readMem 0xDB#8)) = some (0xDB#8, 0xDB#8) := by decide

/-- `95_test_vectors.md` 2.8 -/
theorem test_push_wraps :
    after { running 0x00#8 [0xD0#8] with g0 := 0x10#8, sp := 0x00#8 }
      (fun t => (t.sp, t.readMem 0xFF#8)) = some (0xFF#8, 0xFF#8) := by decide

/-- `95_test_vectors.md` 2.8 -/
theorem test_pop :
    after { (running 0x00#8 [0xD6#8]).pokeBytes 0xDB#8 [0x10#8] with sp := 0xDB#8 }
      (fun t => (t.g1, t.sp)) = some (0x10#8, 0xDC#8) := by decide

/-- `95_test_vectors.md` 2.8, decision D8 -/
theorem test_pop_sp :
    after { (running 0x00#8 [0xDE#8]).pokeBytes 0xDB#8 [0x40#8] with sp := 0xDB#8 }
      (fun t => (t.sp, t.pc)) = some (0x40#8, 0x01#8) := by decide

/-- `95_test_vectors.md` 3.2 A5: taken in the step of the `EI` itself -/
theorem test_ei :
    after { (running 0x02#8 [0xE0#8]).pokeBytes 0xDC#8 [0x30#8] with
            sp := 0xDC#8
            timer := { Timer.reset with pending := true } }
      (fun t => (t.pc, t.ie, t.readMem 0xDB#8, t.readMem 0xDA#8)) =
      some (0x30#8, false, 0x03#8, 0x80#8) := by decide

/-- `95_test_vectors.md` 2.9 -/
theorem test_di :
    after { running 0x00#8 [0xE3#8] with
            ie := true
            timer := { Timer.reset with pending := true } }
      (fun t => (t.ie, t.timer.pending, t.pc)) = some (false, true, 0x01#8) := by decide

/-- `95_test_vectors.md` 2.9 -/
theorem test_reti :
    after { (running 0x30#8 [0xEF#8]).pokeBytes 0xDA#8 [0x7A#8, 0x22#8] with
            sp := 0xDA#8
            ie := true
            flagC := true
            flagZ := true }
      (fun t => (t.pc, t.ie, t.flagC, t.flagS, t.flagZ)) =
      some (0x22#8, false, false, true, false) := by decide

/-- `95_test_vectors.md` 3.2 A4: no dispatch -/
theorem test_halt :
    after { (running 0x00#8 [0xFF#8]).pokeBytes 0xDC#8 [0x30#8] with
            sp := 0xDC#8
            ie := true
            timer := { Timer.reset with pending := true } }
      (fun t => (t.run, t.error, t.pc, t.timer.pending)) =
      some (false, false, 0x01#8, true) := by decide

/-- `95_test_vectors.md` 2.6 -/
theorem test_illegal_byte :
    after { running 0x10#8 [0xB3#8, 0x40#8] with sp := 0xDC#8 }
      (fun t => (t.error, t.run, t.sp, t.timer.acc)) = some (true, false, 0xDC#8, 0) := by decide

/-! ### Timer, arbiter, host -/

/-- `95_test_vectors.md` 3.1 T9: the excess is discarded -/
theorem test_timer_tick :
    after { running 0x00#8 [0x13#8, 0x00#8] with
            timer := { Timer.reset with acc := 32767, enable := true } }
      (fun t => (t.timer.elapsed, t.timer.acc)) = some (true, 0) := by decide

/-- `95_test_vectors.md` 3.1 T8 -/
theorem test_timer_no_tick :
    after { running 0x00#8 [0xA0#8, 0x00#8] with
            timer := { Timer.reset with acc := 32764, enable := true } }
      (fun t => (t.timer.elapsed, t.timer.acc)) = some (false, 32767) := by decide

/-- `95_test_vectors.md` 3.1 T11 -/
theorem test_timer_counter_wraps :
    after { running 0x00#8 [0x13#8, 0x00#8] with
            timer := { Timer.reset with acc := 32767, enable := true, period := 0x02#8,
                                         counter := 0xFF#8 } }
      (fun t => (t.timer.counter, t.timer.elapsed)) = some (0x00#8, false) := by decide

/-- `95_test_vectors.md` 3.2 A2 -/
theorem test_dispatch_rx :
    after { (running 0x00#8 [0x00#8]).pokeBytes 0xDD#8 [0x38#8] with
            sp := 0x80#8
            ie := true
            flagC := true
            flagS := true
            sio := { Sio.reset with rxFull := true, rxIe := true } }
      (fun t => (t.pc, t.sp, t.readMem 0x7F#8, t.readMem 0x7E#8)) =
      some (0x38#8, 0x7E#8, 0x01#8, 0x86#8) := by decide

/-- `95_test_vectors.md` 3.2 A3 -/
theorem test_dispatch_meets_rom :
    after { (running 0x00#8 [0x00#8]).pokeBytes 0xDC#8 [0x30#8] with
            sp := 0xE1#8
            ie := true
            flagC := true
            flagZ := true
            timer := { Timer.reset with pending := true } }
      (fun t => (t.pc, t.sp, t.readMem 0xDF#8, t.readMem 0xE0#8)) =
      some (0x30#8, 0xDF#8, 0x85#8, 0x1F#8) := by decide

/-- The host about to consume one event. -/
def hostAt (e : Event) : State :=
  { State.reset with harness := { Harness.boot with events := [e] } }

/-- `95_test_vectors.md` 3.3 H9 -/
theorem test_parallel_in :
    after (hostAt (.parallelIn 0xA5)) (fun t => (t.pio.parIn, t.pio.adc0, t.pio.adc1, t.pio.adc2)) =
      some (0xA5#8, 231#8, 0x00#8, 231#8) := by decide

/-- `95_test_vectors.md` 3.3 H8 and R425's clip -/
theorem test_analog_byte :
    [1000, 1650, 3000, 3300, 5000, -1].map analogByte =
      [77#8, 127#8, 231#8, 255#8, 255#8, 0x00#8] := by decide

/-- `95_test_vectors.md` 3.3 H6 -/
theorem test_ms_to_states :
    [1, 10, 13, 1000].map statesOfMs = [2457, 24576, 31948, 2457600] := by decide

/-- `95_test_vectors.md` 3.3 H10 -/
theorem test_service :
    let s := { State.reset with
      sio := { Sio.reset with txEmpty := false, txData := 0x41#8 }
      harness := { Harness.boot with rxQueue := [0x42#8] } }
    (s.service.sio.rxData, s.service.sio.rxFull, s.service.sio.txEmpty, s.service.harness.printer) =
      (0x42#8, true, true, [.byte .serial 0x41#8]) := by decide

/-- `70_reset_and_hazards.md` R405: start, size, bytes, and `PC` stays -/
theorem test_boot :
    (boot [0x00#8, 0x03#8, 0x13#8, 0x05#8, 0xFF#8] [.run, .waitStop]).map
      (fun t => (t.readMem 0x00#8, t.readMem 0x02#8, t.pc)) =
      some (0x13#8, 0xFF#8, 0x00#8) := by decide

/-- A file shorter than its size says is refused (R405). -/
theorem test_boot_malformed : boot [0x00#8, 0x03#8, 0x13#8] [] = none := by decide

/-- The placed instruction runs first (log entry 9). -/
theorem test_with_fetch_word :
    after (State.reset.withFetchWord 16 0x0513) (fun t => (t.g0, t.pc)) =
      some (0x05#8, 0x02#8) := by decide

/-! ### Witnesses: a state and operands that meet all the hypotheses of a statement -/

/-- A CPU step in a quantum with `n` states counted. -/
def inQuantum (k : WaitKind) (n : Nat) (s : State) : State :=
  { s with harness := { s.harness with wait := some { kind := k, acc := n } } }

theorem witness_DecodeInvertsEncode : Instr.WellFormed (.call .g2 0xFF#8) := by decide

theorem witness_EncodeInvertsDecode :
    decode [0xB2#8, 0xFF#8, 0x00#8] = .ok (.call .g2 0xFF#8, [0x00#8]) := rfl

theorem witness_LengthByOpcode :
    decode [0xCF#8, 0x00#8] = .ok (.out .sp 0x00#8, []) ∧
    decode [0xD0#8, 0x00#8] = .ok (.push .g0, [0x00#8]) := ⟨rfl, rfl⟩

theorem witness_OperandForms : State.reset.ea .g2 0xFF#8 = some 0xFF#8 := by decide

/-- Both sides of the ROM gate. -/
theorem witness_StStoresThroughGate :
    State.reset.ea .direct 0xDF#8 = some 0xDF#8 ∧ (0xDF#8).toNat < 0xE0 ∧
    State.reset.ea .g1 0xE0#8 = some 0xE0#8 ∧ ¬ (0xE0#8).toNat < 0xE0 := by decide

theorem witness_JumpsFollowTheirCondition :
    ({ State.reset with g1 := 0x06#8 } : State).ea .g1 0x20#8 = some 0x26#8 := by decide

/-- Both sides of the ROM gate. -/
theorem witness_CallPushesReturnAddress :
    State.reset.ea .direct 0x40#8 = some 0x40#8 ∧ (0xE0#8 - 1#8 : Byte).toNat < 0xE0 ∧
    ¬ (State.reset.sp - 1#8).toNat < 0xE0 := by decide

theorem witness_RetAfterCallReturns :
    let s : State := { State.reset with sp := 0xE0#8 }
    s.ea .direct 0x40#8 = some 0x40#8 ∧ (s.sp - 1#8).toNat < 0xE0 := by decide

theorem witness_PushStoresBelow :
    (0xE0#8 - 1#8 : Byte).toNat < 0xE0 ∧ ¬ (0xE1#8 - 1#8 : Byte).toNat < 0xE0 := by decide

theorem witness_PopLoadsTop : Reg.g2 ≠ Reg.sp := by decide

theorem witness_PushThenPopMoves :
    let s : State := { State.reset with sp := 0xE0#8 }
    Reg.g0 ≠ .sp ∧ Reg.g2 ≠ .sp ∧ (s.sp - 1#8).toNat < 0xE0 := by decide

theorem witness_PortRangeRaisesError : 0x10 ≤ (0x10#8).toNat ∧ ¬ 0x10 ≤ (0x0F#8).toNat := by decide

theorem witness_FlagsHaveTheirWritersOnly :
    keepsFlags .no = true ∧ exec .no State.reset = .next State.reset := ⟨rfl, rfl⟩

theorem witness_IeHasItsWritersOnly :
    writesIe .no = false ∧ exec .no State.reset = .next State.reset ∧ Event.run ≠ .reset ∧
    State.reset.applyEvent .run = .next { State.reset with run := true } ∧
    ∃ t, step (running 0x00#8 [0xE0#8]) = .next t :=
  ⟨rfl, rfl, by decide, rfl, _, rfl⟩

/-- Both sides of the port range. -/
theorem witness_OnlyPortRangeRaisesError :
    State.reset.error = false ∧
    portOutOfRange (.inp .g0 0x0F#8) = false ∧ Instr.inp .g0 0x0F#8 ≠ .halt ∧
    (∃ t, exec (.inp .g0 0x0F#8) State.reset = .next t) ∧
    portOutOfRange (.inp .g0 0x10#8) = true ∧
    ∃ t, exec (.inp .g0 0x10#8) State.reset = .next t :=
  ⟨rfl, rfl, by decide, ⟨_, rfl⟩, rfl, ⟨_, rfl⟩⟩

theorem witness_InstructionsLeaveHostInputs :
    ∃ t, exec (.out .g0 0x0C#8) State.reset = .next t := ⟨_, rfl⟩

/-- Single-stepped, and at the last states count of a quantum. -/
theorem witness_StepRunsDecodedInstruction :
    State.CpuMoves (running 0x00#8 [0x13#8, 0x05#8]) ∧
    State.CpuMoves (inQuantum .stop 31 (running 0x00#8 [0x13#8, 0x05#8])) ∧
    decode [(running 0x00#8 [0x13#8, 0x05#8]).readMem 0x00#8,
      (running 0x00#8 [0x13#8, 0x05#8]).readMem 0x01#8] = .ok (.ld .g0 .imm 0x05#8, []) ∧
    Instr.WellFormed (.ld .g0 .imm 0x05#8) ∧
    ∃ t, exec (.ld .g0 .imm 0x05#8) { running 0x00#8 [0x13#8, 0x05#8] with pc := 0x02#8 } = .next t :=
  ⟨⟨⟨rfl, rfl⟩, .inr ⟨rfl, rfl⟩⟩, ⟨⟨rfl, rfl⟩, .inl ⟨_, rfl, by decide⟩⟩, rfl, rfl, ⟨_, rfl⟩⟩

theorem witness_IllegalByteRaisesError :
    State.CpuMoves (running 0x00#8 [0xFE#8]) ∧
    (running 0x00#8 [0xFE#8]).readMem 0x00#8 ∈ illegalBytes :=
  ⟨⟨⟨rfl, rfl⟩, .inr ⟨rfl, rfl⟩⟩, by decide⟩

theorem witness_ErrorStateHasNoStep : ({ State.reset with error := true } : State).error = true := rfl

theorem witness_StoppedMachineKeepsItsState :
    State.reset.Stopped ∧ State.reset.harness.wait = none ∧ State.reset.harness.events = [] :=
  ⟨⟨rfl, rfl⟩, rfl, rfl⟩

/-- Each clause, on both sides of a tick. -/
theorem witness_TimerAdvanceRule :
    32764 + 3 < 32768 ∧ 32768 ≤ 32764 + 4 ∧ Timer.reset.enable = false ∧
    ({ Timer.reset with enable := true, period := 0x01#8 } : Timer).counter ≠ 0x01#8 ∧
    ({ Timer.reset with enable := true } : Timer).counter = Timer.reset.period := by decide

theorem witness_PeriodIsOneMoreTick :
    Timer.reset.counter = 0x00#8 ∧
    ({ Timer.reset with period := 0xFF#8 } : Timer).counter = 0x00#8 ∧
    255 ≤ ({ Timer.reset with period := 0xFF#8 } : Timer).period.toNat := by decide

/-- Each source alone, and the two clauses that dispatch nothing. -/
theorem witness_ArbitrationOrder :
    let s : State := { State.reset with ie := true }
    State.reset.ie = false ∧
    (s.ie = true ∧ s.timer.pending = false ∧ s.sio.rxFull = false ∧ s.sio.txIe = false ∧
      s.console.pending = false) ∧
    ({ s with timer := { s.timer with pending := true } } : State).timer.pending = true ∧
    (({ s with sio := { s.sio with rxFull := true, rxIe := true } } : State).sio.rxFull = true ∧
      ({ s with sio := { s.sio with rxFull := true, rxIe := true } } : State).sio.rxIe = true) ∧
    (({ s with sio := { s.sio with txIe := true } } : State).sio.txEmpty = true ∧
      ({ s with sio := { s.sio with txIe := true } } : State).sio.txIe = true) ∧
    ({ s with console := { s.console with pending := true } } : State).console.pending = true := by
  decide

/-- The highest stack pointer whose frame lands in RAM, and the lowest. -/
theorem witness_RetiInvertsDispatch :
    let s : State := { State.reset with ie := true, sp := 0xE0#8 }
    let u : State := { State.reset with ie := true, sp := 0x02#8 }
    s.ie = true ∧ (s.sp - 1#8).toNat < 0xE0 ∧ (s.sp - 2#8).toNat < 0xE0 ∧
    (u.sp - 1#8).toNat < 0xE0 ∧ (u.sp - 2#8).toNat < 0xE0 := by decide

/-- A step with both latched requests set, one of which is dispatched. -/
theorem witness_LatchedRequestsPersist :
    let s : State := { running 0x00#8 [0x00#8] with
      ie := true
      timer := { Timer.reset with pending := true }
      console := { Console.reset with pending := true } }
    s.timer.pending = true ∧ s.console.pending = true ∧ (after s fun t => t.timer.pending) = some false ∧
    (after s fun t => t.console.pending) = some true := by decide

theorem hostAt_hostMoves (e : Event) : (hostAt e).HostMoves e [] := ⟨rfl, rfl, rfl⟩

theorem witness_HostSetsRegistersAndFlags :
    (hostAt (.setReg (.gen .sp) 0x1DC)).HostMoves (.setReg (.gen .sp) 0x1DC) [] ∧
    (hostAt (.setReg .pc 0xE0)).HostMoves (.setReg .pc 0xE0) [] ∧
    (hostAt (.setFlag .c true)).HostMoves (.setFlag .c true) [] ∧
    (hostAt (.setFlag .s true)).HostMoves (.setFlag .s true) [] ∧
    (hostAt (.setFlag .z true)).HostMoves (.setFlag .z true) [] :=
  ⟨hostAt_hostMoves _, hostAt_hostMoves _, hostAt_hostMoves _, hostAt_hostMoves _, hostAt_hostMoves _⟩

/-- Both sides of the ROM gate. -/
theorem witness_HostStoresThroughGate :
    (hostAt (.setMem 0xDF 0x40)).HostMoves (.setMem 0xDF 0x40) [] ∧
    (hostAt (.setMem 0xE0 0x40)).HostMoves (.setMem 0xE0 0x40) [] :=
  ⟨hostAt_hostMoves _, hostAt_hostMoves _⟩

theorem witness_HostSetsInputs :
    (hostAt (.dataSwitch 0x5A)).HostMoves (.dataSwitch 0x5A) [] ∧
    (∀ ch, (hostAt (.analogIn ch 0xE7#8)).HostMoves (.analogIn ch 0xE7#8) []) ∧
    (hostAt (.parallelIn 0xA5)).HostMoves (.parallelIn 0xA5) [] :=
  ⟨hostAt_hostMoves _, fun _ => hostAt_hostMoves _, hostAt_hostMoves _⟩

/-- Running with the enable set, running with it clear, and stopped. -/
theorem witness_ConsoleRequestNeedsItsEnable :
    let s : State := { hostAt .write with run := true }
    let u : State := { s with console := { Console.reset with ie := true } }
    (u.HostMoves .write [] ∧ u.run = true ∧ u.console.ie = true) ∧
    (s.HostMoves .write [] ∧ s.run = true ∧ s.console.ie = false) ∧
    ((hostAt .write).HostMoves .write [] ∧ (hostAt .write).run = false) :=
  ⟨⟨⟨rfl, rfl, rfl⟩, rfl, rfl⟩, ⟨⟨rfl, rfl, rfl⟩, rfl, rfl⟩, hostAt_hostMoves _, rfl⟩

theorem witness_RunAndStopSetTheFlag :
    (hostAt .run).HostMoves .run [] ∧ (hostAt .stop).HostMoves .stop [] :=
  ⟨hostAt_hostMoves _, hostAt_hostMoves _⟩

theorem witness_ResetEventKeepsMemory : (hostAt .reset).HostMoves .reset [] := hostAt_hostMoves _

theorem witness_SerialAndPrintTouchHostOnly :
    (hostAt (.serialIn [0x41, 0x142])).HostMoves (.serialIn [0x41, 0x142]) [] ∧
    (∀ w, (hostAt (.print w)).HostMoves (.print w) []) ∧
    (hostAt (.setMode .print .udec)).HostMoves (.setMode .print .udec) [] ∧
    (hostAt .endScript).HostMoves .endScript [] :=
  ⟨hostAt_hostMoves _, fun _ => hostAt_hostMoves _, hostAt_hostMoves _, hostAt_hostMoves _⟩

theorem witness_WaitEventsOpenAQuantum :
    (hostAt .waitStop).HostMoves .waitStop [] ∧ (hostAt .waitSerial).HostMoves .waitSerial [] ∧
    (hostAt (.waitStates 0)).HostMoves (.waitStates 0) [] ∧
    (hostAt (.waitMs 1)).HostMoves (.waitMs 1) [] ∧ 1 * 2457600 / 1000 = 2457 ∧
    (hostAt (.waitSec 1)).HostMoves (.waitSec 1) [] :=
  ⟨hostAt_hostMoves _, hostAt_hostMoves _, hostAt_hostMoves _, hostAt_hostMoves _, rfl,
    hostAt_hostMoves _⟩

/-- The receiver empty with a byte queued, empty with none, and full. -/
theorem witness_ServiceMovesOneByteEachWay :
    let s : State := { State.reset with harness := { Harness.boot with rxQueue := [0x42#8] } }
    let u : State := { s with sio := { Sio.reset with rxFull := true } }
    (s.sio.rxFull = false ∧ s.harness.rxQueue = 0x42#8 :: []) ∧
    State.reset.harness.rxQueue = [] ∧ u.sio.rxFull = true := by decide

/-- The last step that a quantum admits. -/
theorem witness_QuantumCountsStates :
    let s := inQuantum .stop 31 (running 0x00#8 [0x00#8])
    State.CpuMoves s ∧ s.harness.wait = some { kind := .stop, acc := 31 } ∧
    decode [s.readMem s.pc, s.readMem (s.pc + 1#8)] = .ok (.no, [0x00#8]) ∧
    ∃ t, exec .no { s with pc := s.pc + BitVec.ofNat 8 1 } = .next t ∧ t.error = false :=
  ⟨⟨⟨rfl, rfl⟩, .inl ⟨_, rfl, by decide⟩⟩, rfl, rfl, _, rfl, rfl⟩

/-- Each kind of wait, full at 32 or cut short. -/
theorem witness_QuantumEndsWithService :
    let f := fun k => inQuantum k 32 { State.reset with run := true }
    (∀ k, (f k).error = false ∧ (f k).harness.wait = some { kind := k, acc := 32 } ∧ 32 ≤ 32) ∧
    (inQuantum .stop 0 State.reset).run = false :=
  ⟨fun _ => ⟨rfl, rfl, Nat.le_refl _⟩, rfl⟩

/-- An image whose last byte falls in ROM, in a file with a byte too many, of the exact length, and a
byte too short. -/
theorem witness_LoadedImageReadsBack :
    [0x13#8, 0x05#8].length ≤ 256 ∧ [0x13#8, 0x05#8][0]? = some 0x13#8 ∧
    (0xDF#8 + BitVec.ofNat 8 0 : Byte).toNat < 0xE0 ∧
    0xE0 ≤ (0xDF#8 + BitVec.ofNat 8 1 : Byte).toNat ∧
    (∀ k, k < 2 → (0xDE#8 : Byte) ≠ 0xDF#8 + BitVec.ofNat 8 k) ∧
    (2#8).toNat ≤ [0x13#8, 0x05#8, 0x00#8].length ∧ (2#8).toNat ≤ [0x13#8, 0x05#8].length ∧
    [0x13#8].length < (2#8).toNat ∧
    State.reset.loadImage [0xDF#8, 2#8] = none ∧
    (State.reset.loadImage [0xDF#8, 2#8, 0x13#8, 0x05#8]).isSome = true := by decide

theorem witness_NoStepChangesRom :
    (∃ t, step (running 0x00#8 [0x20#8, 0xE0#8]) = .next t) ∧ 0xE0 ≤ (0xE0#8).toNat :=
  ⟨⟨_, rfl⟩, by decide⟩

theorem witness_StepKeepsInvariant :
    State.reset.Inv ∧ step State.reset = .next State.reset :=
  ⟨⟨rfl, fun _ _ => rfl, Nat.zero_lt_succ _, nofun, nofun⟩, rfl⟩

end Sys2Proof.Tests
end

/-! ## What the registers of the state keep (`10_state.md`)

First what the port accesses, the jumps, an ALU result and the end of a step leave unchanged, then the
statements of the family. -/

namespace Sys2Proof.Machine

/-! ### The port accesses -/

/-- A port read changes the SIO and the timer only, and never the byte received (R38). -/
theorem State.portIn_frame (s : State) (p : Byte) :
    ∃ x y, (s.portIn p).2 = (s.setSio x).setTimer y ∧ x.rxData = s.sio.rxData := by
  obtain h | ⟨-, h⟩ | ⟨-, h⟩ := s.portIn_snd_cases p
  · exact ⟨s.sio, s.timer, h, rfl⟩
  · exact ⟨{ s.sio with rxFull := false }, s.timer, h, rfl⟩
  · exact ⟨s.sio, { s.timer with elapsed := false }, h, rfl⟩

/-- The inputs among the other peripherals, which only the host drives (R40), are unchanged. -/
def Pio.SameInputs (x y : Pio) : Prop :=
  y.dataSw = x.dataSw ∧ y.parIn = x.parIn ∧ y.adc0 = x.adc0 ∧ y.adc1 = x.adc1 ∧
    y.adc2 = x.adc2 ∧ y.adc3 = x.adc3

theorem Pio.SameInputs.refl (x : Pio) : x.SameInputs x := ⟨rfl, rfl, rfl, rfl, rfl, rfl⟩

theorem Pio.sameInputs_writeControl (x : Pio) (v : Byte) : x.SameInputs (x.writeControl v) := by
  unfold Pio.writeControl
  split <;> exact ⟨rfl, rfl, rfl, rfl, rfl, rfl⟩

/-- Of the ports, 0, 1, 7 and C write the other peripherals, and only their outputs. -/
theorem State.sameInputs_portOut (s : State) (p v : Byte) :
    s.pio.SameInputs (s.portOut p v).pio := by
  unfold State.portOut
  split
  -- port C, the one write that depends on the byte (R225)
  case h_13 => exact s.pio.sameInputs_writeControl v
  all_goals exact ⟨rfl, rfl, rfl, rfl, rfl, rfl⟩

/-- A port write changes the peripherals only: of the SIO never the byte received, of the console never
the request (R38, R39). -/
theorem State.portOut_frame (s : State) (p v : Byte) :
    ∃ x y c z, s.portOut p v = (((s.setSio x).setTimer y).setConsole c).setPio z ∧
      x.rxData = s.sio.rxData ∧ c.pending = s.console.pending := by
  obtain h | ⟨z, h⟩ | h | h | h | h | h := s.portOut_cases p v
  · exact ⟨s.sio, s.timer, s.console, s.pio, h, rfl, rfl⟩
  · exact ⟨s.sio, s.timer, s.console, z, h, rfl, rfl⟩
  · exact ⟨{ s.sio with txData := v, txEmpty := false }, s.timer, s.console, s.pio, h, rfl, rfl⟩
  · exact ⟨{ s.sio with txIe := v.getLsbD 7, rxIe := v.getLsbD 6 }, s.timer, s.console, s.pio, h,
      rfl, rfl⟩
  · exact ⟨s.sio, { s.timer with period := v }, s.console, s.pio, h, rfl, rfl⟩
  · exact ⟨s.sio, s.timer.writeControl v, s.console, s.pio, h, rfl, rfl⟩
  · exact ⟨s.sio, s.timer, { s.console with ie := v.getLsbD 0 }, s.pio, h, rfl, rfl⟩

@[simp] theorem State.ie_portIn (s : State) (p : Byte) : (s.portIn p).2.ie = s.ie := by
  obtain ⟨x, y, h, -⟩ := s.portIn_frame p
  rw [h]; rfl

@[simp] theorem State.ie_portOut (s : State) (p v : Byte) : (s.portOut p v).ie = s.ie := by
  obtain ⟨x, y, c, z, h, -⟩ := s.portOut_frame p v
  rw [h]; rfl

theorem State.sameFlags_portIn (s : State) (p : Byte) : SameFlags s (s.portIn p).2 := by
  obtain ⟨x, y, h, -⟩ := s.portIn_frame p
  rw [h]; exact ⟨rfl, rfl, rfl⟩

theorem State.sameFlags_portOut (s : State) (p v : Byte) : SameFlags s (s.portOut p v) := by
  obtain ⟨x, y, c, z, h, -⟩ := s.portOut_frame p v
  rw [h]; exact ⟨rfl, rfl, rfl⟩

/-! ### `C`, `S`, `Z` -/

theorem SameFlags.refl (s : State) : SameFlags s s := ⟨rfl, rfl, rfl⟩

/-- A register write after an operation that keeps the flags keeps them too. -/
theorem SameFlags.setReg {s t : State} (h : SameFlags s t) (r : Reg) (v : Byte) :
    SameFlags s (t.setReg r v) := by
  simpa [SameFlags] using h

/-- A jump writes `PC` at most, or raises the error (`44_branch_call.md` R180). -/
theorem State.sameFlags_jumpIf (s : State) (c : Bool) (xr : XR) (d : Byte) :
    SameFlags s (s.jumpIf c xr d) := by
  unfold State.jumpIf
  split
  · split <;> exact ⟨rfl, rfl, rfl⟩
  · exact ⟨rfl, rfl, rfl⟩

/-- The writers of `C`, `S`, `Z` are the instructions that R28 to R30 name. -/
theorem exec_sameFlags {i : Instr} {s t : State} (hi : Statements.keepsFlags i = true)
    (h : exec i s = .next t) : SameFlags s t := by
  cases i
  case add | sub | cmp | and | or | xor | shla | shll | shra | shrl | reti => cases hi
  case no | push | ei | di | ret | halt => cases h; exact ⟨rfl, rfl, rfl⟩
  case ld gr xr d => cases h; exact (SameFlags.refl s).setReg gr _
  case pop gr => cases h; exact ((SameFlags.refl s).setReg .sp _).setReg gr _
  case jmp | jz | jc | jm | jnz | jnc | jnm => cases h; exact s.sameFlags_jumpIf ..
  case st | call =>
    simp only [exec, execSt, execCall] at h
    split at h <;> cases h <;> exact ⟨rfl, rfl, rfl⟩
  case inp gr p =>
    simp only [exec, execIn] at h
    split at h <;> cases h
    · exact (s.sameFlags_portIn p).setReg gr _
    · exact ⟨rfl, rfl, rfl⟩
  case out gr p =>
    simp only [exec, execOut] at h
    split at h <;> cases h
    · exact s.sameFlags_portOut p _
    · exact ⟨rfl, rfl, rfl⟩

/-! ### What only the host writes -/

/-- What only the host writes (R38, R39, R40, R43) is unchanged. -/
def SameHostInputs (s t : State) : Prop :=
  s.pio.SameInputs t.pio ∧ t.sio.rxData = s.sio.rxData ∧
    t.console.pending = s.console.pending ∧ t.harness = s.harness

/-- An operation that touches no peripheral and not the host leaves the host's inputs. -/
theorem SameHostInputs.of_eq {s t : State} (hp : t.pio = s.pio) (hs : t.sio = s.sio)
    (hc : t.console = s.console) (hh : t.harness = s.harness) : SameHostInputs s t :=
  ⟨hp ▸ .refl t.pio, by rw [hs], by rw [hc], hh⟩

theorem State.sameHostInputs_portIn (s : State) (p : Byte) : SameHostInputs s (s.portIn p).2 := by
  obtain ⟨x, y, h, hx⟩ := s.portIn_frame p
  rw [h]; exact ⟨.refl s.pio, hx, rfl, rfl⟩

theorem State.sameHostInputs_portOut (s : State) (p v : Byte) :
    SameHostInputs s (s.portOut p v) := by
  refine ⟨s.sameInputs_portOut p v, ?_⟩
  obtain ⟨x, y, c, z, h, hx, hc⟩ := s.portOut_frame p v
  rw [h]; exact ⟨hx, hc, rfl⟩

/-- A register write after an operation that keeps the host's inputs keeps them too. -/
theorem SameHostInputs.setReg {s t : State} (h : SameHostInputs s t) (r : Reg) (v : Byte) :
    SameHostInputs s (t.setReg r v) := by
  simpa [SameHostInputs] using h

/-- Of the effects of the instructions only `OUT` and `IN` touch a peripheral. -/
theorem Effect.sameHostInputs {i : Instr} {s t : State} (h : Effect i s t) :
    SameHostInputs s t := by
  cases h with
  | inp gr p => exact (s.sameHostInputs_portIn p).setReg gr _
  | out gr p => exact s.sameHostInputs_portOut p _
  | alu gr r => rw [State.writeAlu_eq]; apply SameHostInputs.of_eq <;> simp
  | _ => apply SameHostInputs.of_eq <;> simp

/-! ### `IE` -/

/-- Of the effects of the instructions only those of `EI`, `DI` and `RETI` write `IE` (R31). -/
theorem Effect.ie_eq {i : Instr} {s t : State} (h : Effect i s t)
    (hi : Statements.writesIe i = false) : t.ie = s.ie := by
  cases h with
  | ie b hb => subst hb; cases b <;> cases hi
  | reti hr => subst hr; cases hi
  | alu gr r => rw [State.writeAlu_eq]; simp
  | _ => simp

@[simp] theorem State.ie_setHostReg (s : State) (r : HostReg) (v : Byte) :
    (s.setHostReg r v).ie = s.ie := by
  cases r with
  | gen g => exact s.ie_setReg g v
  | pc => rfl

@[simp] theorem State.ie_setHostFlag (s : State) (f : HostFlag) (v : Bool) :
    (s.setHostFlag f v).ie = s.ie := by
  cases f <;> rfl

@[simp] theorem State.ie_openQuantum (s : State) (k : WaitKind) :
    (s.openQuantum k).ie = s.ie := rfl

@[simp] theorem State.ie_drainTx (s : State) : s.drainTx.ie = s.ie := by
  obtain ⟨-, h⟩ | ⟨-, h⟩ := s.drainTx_cases
  · rw [h]
  · rw [h]; rfl

@[simp] theorem State.ie_deliverRx (s : State) : s.deliverRx.ie = s.ie := by
  obtain ⟨-, h⟩ | ⟨b, q, -, -, h⟩ := s.deliverRx_cases
  · rw [h]
  · rw [h]; rfl

@[simp] theorem State.ie_endQuantum (s : State) (w : Wait) : (s.endQuantum w).ie = s.ie := by
  simp [State.endQuantum, State.service]

/-- Of the host's events only the reset writes `IE` (`70_reset_and_hazards.md` R400). -/
theorem State.ie_of_applyEvent {s t : State} {e : Event} (he : e ≠ .reset)
    (h : s.applyEvent e = .next t) : t.ie = s.ie := by
  cases e
  case reset => exact absurd rfl he
  case write =>
    simp only [State.applyEvent] at h
    split at h <;> cases h
    rfl
  case setReg r v => cases h; exact s.ie_setHostReg r _
  case setFlag f v => cases h; exact s.ie_setHostFlag f v
  all_goals cases h; rfl

@[simp] theorem State.ie_accountStates (s : State) (n : Nat) : (s.accountStates n).ie = s.ie := by
  rw [State.accountStates_eq, State.ie_setHarness]

/-- The state is one that a dispatch leaves: through one of the four vector cells, from a state with
`IE` set (`60_exceptions.md` R310, R320). -/
def State.Dispatched (t : State) : Prop :=
  ∃ (u : State) (vec : Byte), u.ie = true ∧ vec ∈ [0xDC#8, 0xDD#8, 0xDE#8, 0xDF#8] ∧
    t = u.dispatch vec

theorem State.Dispatched.ie_eq {t : State} (h : t.Dispatched) : t.ie = false := by
  obtain ⟨u, vec, -, -, rfl⟩ := h
  exact u.ie_dispatch vec

/-- The arbiter does nothing, or dispatches. -/
theorem State.arbitrate_eq_or_dispatched (s : State) : s.arbitrate = s ∨ s.arbitrate.Dispatched := by
  obtain h | ⟨hie, -, h⟩ | ⟨hie, -, h⟩ | ⟨hie, -, h⟩ | ⟨hie, -, h⟩ := s.arbitrate_cases
  · exact .inl h
  · exact .inr ⟨s.setTimer { s.timer with pending := false }, Config.vecTimer, hie, by decide, h⟩
  · exact .inr ⟨s, Config.vecRx, hie, by decide, h⟩
  · exact .inr ⟨s, Config.vecTx, hie, by decide, h⟩
  · exact .inr ⟨s.setConsole { s.console with pending := false }, Config.vecConsole, hie, by decide, h⟩

/-- After `Execute` a step writes `IE` by a dispatch only. -/
theorem State.ie_finishStep_or_dispatched (n : Nat) (s : State) :
    (s.finishStep n).ie = s.ie ∨ (s.finishStep n).Dispatched := by
  obtain ⟨-, h⟩ | ⟨-, -, h⟩ | ⟨-, -, h⟩ := s.finishStep_cases n <;> rw [h]
  · exact .inl rfl
  · exact .inl (by simp)
  · obtain ha | ha := State.arbitrate_eq_or_dispatched ((s.timerAdvance n).accountStates n)
    · exact .inl (by rw [ha]; simp)
    · exact .inr ha

/-- A fetch that gives an instruction has decoded the two bytes at `PC`. -/
theorem State.decode_of_fetch {s : State} {i : Instr} (h : s.fetch = .ok i) :
    ∃ rest, decode [s.readMem s.pc, s.readMem (s.pc + 1#8)] = .ok (i, rest) := by
  unfold State.fetch at h
  split at h
  · next j rest hd => cases h; exact ⟨rest, hd⟩
  · cases h

/-- A CPU step writes `IE` by the instruction at `PC`, one of the writers, or by a dispatch. -/
theorem State.ie_of_cpuStep {s t : State} (h : s.cpuStep = .next t) :
    t.ie = s.ie ∨ (∃ i, s.fetch = .ok i ∧ Statements.writesIe i = true) ∨ t.Dispatched := by
  obtain ⟨-, rfl⟩ | ⟨i, u, hf, hx, rfl⟩ := State.cpuStep_cases h
  · exact .inl rfl
  · cases hi : Statements.writesIe i with
    | true => exact .inr (.inl ⟨i, hf, hi⟩)
    | false =>
      have hu : u.ie = s.ie := (effect_of_exec hx).ie_eq hi
      rw [← hu]
      exact (u.ie_finishStep_or_dispatched _).imp_right .inr

/-! ### The error state and the reset state -/

/-- From the error state there is no turn, of the CPU or of the host (R33). -/
theorem State.turn_of_error {s : State} (h : s.error = true) : s.turn = .fault .errorState := by
  rw [State.turn, if_pos h]

/-- With no entry in memory ROM reads as the IPL (`20_memory.md` R66). -/
theorem State.romIntact_of_mem_nil {s : State} (h : s.mem = []) : s.RomIntact := by
  intro a _
  rw [State.readMem, h, Memory.read_nil]

end Sys2Proof.Machine

namespace Sys2Proof.StateProofs

open Sys2Proof.Machine

/-- Settles O31: the split is over the instructions. -/
theorem flagsHaveTheirWritersOnly : Obligations.FlagsHaveTheirWritersOnly :=
  fun _ _ _ hi h => exec_sameFlags hi h

/-- Settles O32: the effects of the instructions, the events, and the four ways a turn can go. -/
theorem ieHasItsWritersOnly : Obligations.IeHasItsWritersOnly := by
  refine ⟨fun i s t hi h => (effect_of_exec h).ie_eq hi,
    fun e s t he h => State.ie_of_applyEvent he h, fun s t h => ?_⟩
  obtain ⟨herr, ⟨hrun, hcpu, hturn⟩ | ⟨w, -, rfl⟩ | ⟨e, rest, hw, hev, he⟩ | ⟨-, -, -, rfl⟩⟩ :=
    State.turn_cases h
  · have hmoves : s.CpuMoves := ⟨⟨hrun, herr⟩, hturn⟩
    obtain hie | ⟨i, hf, hi⟩ | hd := State.ie_of_cpuStep hcpu
    · exact .inl hie
    · obtain ⟨rest, hdec⟩ := State.decode_of_fetch hf
      exact .inr (.inr (.inl ⟨hmoves, i, rest, hdec, hi⟩))
    · exact .inr (.inr (.inr ⟨hmoves, hd.ie_eq, hd⟩))
  · exact .inl (s.ie_endQuantum w)
  · by_cases hr : e = .reset
    · subst hr
      exact .inr (.inl ⟨rest, herr, hw, hev⟩)
    · have hie := State.ie_of_applyEvent hr he
      exact .inl hie
  · exact .inl rfl

/-- Settles O34: the split is over the effects of the instructions. -/
theorem instructionsLeaveHostInputs : Obligations.InstructionsLeaveHostInputs := by
  intro i s t h
  obtain ⟨⟨hsw, hpar, h0, h1, h2, h3⟩, hrx, hcon, hhost⟩ := (effect_of_exec h).sameHostInputs
  exact ⟨hsw, hpar, h0, h1, h2, h3, hrx, hcon, hhost⟩

/-- Settles O37. -/
theorem errorStateHasNoStep : Obligations.ErrorStateHasNoStep :=
  fun _ h => State.turn_of_error h

/-- Settles O59: memory after reset has no entry, the accumulator is 0, and there is neither an error nor
a quantum. -/
theorem resetHasInvariant : Obligations.ResetHasInvariant where
  memCanonical := Memory.wf_reset
  romIntact := State.romIntact_of_mem_nil rfl
  accBelowTick := Nat.zero_lt_succ _
  errorStops := nofun
  quantumBounded := nofun

end Sys2Proof.StateProofs

/-! ## What every step keeps: memory behind its gate, and the invariant (`20_memory.md`)

First the one way memory changes, by writes through the ROM gate (R64), then for each other part of the
invariant what the instructions, the end of a CPU step and the host do to it, then the statements of the
family. -/

namespace Sys2Proof.Machine

/-! ### Writes through the gate -/

/-- The second memory comes from the first by writes through the ROM gate, none included (R63, R64). -/
inductive Memory.GatedWrites (m : Memory) : Memory → Prop
  | none : GatedWrites m m
  | write {m' : Memory} (h : GatedWrites m m') (a v : Byte) : GatedWrites m (m'.write a v)

theorem Memory.GatedWrites.of_eq {m m' : Memory} (h : m' = m) : m.GatedWrites m' := h ▸ .none

theorem Memory.GatedWrites.trans {m m' m'' : Memory} (h : m.GatedWrites m')
    (h' : m'.GatedWrites m'') : m.GatedWrites m'' := by
  induction h' with
  | none => exact h
  | write _ a v ih => exact .write ih a v

/-- Writes through the gate leave ROM alone (R63). -/
theorem Memory.GatedWrites.read_rom {m m' : Memory} (h : m.GatedWrites m') {a : Byte}
    (ha : Config.romStart ≤ a) : m'.read a = m.read a := by
  induction h with
  | none => rfl
  | write _ b v ih =>
    have hgate : ¬ (a = b ∧ b < Config.romStart) :=
      fun ⟨hab, hb⟩ => BitVec.not_lt.mpr ha (hab ▸ hb)
    rw [Memory.read_write, if_neg hgate, ih]

/-- Writes through the gate keep the canonical form. -/
theorem Memory.GatedWrites.wf {m m' : Memory} (h : m.GatedWrites m') (hm : m.wf = true) :
    m'.wf = true := by
  induction h with
  | none => exact hm
  | write _ a v ih => exact Memory.wf_write a v ih

/-! ### The end of a CPU step -/

/-- The arbiter, seen from what is left alone: it may clear a request of the timer or of the console, and
then dispatch. -/
theorem State.arbitrate_frame (s : State) :
    s.arbitrate = s ∨ ∃ x c vec, x.acc = s.timer.acc ∧
      s.arbitrate = ((s.setTimer x).setConsole c).dispatch vec := by
  obtain h | ⟨-, -, h⟩ | ⟨-, -, h⟩ | ⟨-, -, h⟩ | ⟨-, -, h⟩ := s.arbitrate_cases
  · exact .inl h
  · exact .inr ⟨{ s.timer with pending := false }, s.console, Config.vecTimer, rfl, h⟩
  · exact .inr ⟨s.timer, s.console, Config.vecRx, rfl, h⟩
  · exact .inr ⟨s.timer, s.console, Config.vecTx, rfl, h⟩
  · exact .inr ⟨s.timer, { s.console with pending := false }, Config.vecConsole, rfl, h⟩

@[simp] theorem State.run_arbitrate (s : State) : s.arbitrate.run = s.run := by
  obtain h | ⟨x, c, vec, -, h⟩ := s.arbitrate_frame <;> simp [h]

@[simp] theorem State.error_arbitrate (s : State) : s.arbitrate.error = s.error := by
  obtain h | ⟨x, c, vec, -, h⟩ := s.arbitrate_frame <;> simp [h]

@[simp] theorem State.harness_arbitrate (s : State) : s.arbitrate.harness = s.harness := by
  obtain h | ⟨x, c, vec, -, h⟩ := s.arbitrate_frame <;> simp [h]

@[simp] theorem State.acc_arbitrate (s : State) : s.arbitrate.timer.acc = s.timer.acc := by
  obtain h | ⟨x, c, vec, hx, h⟩ := s.arbitrate_frame
  · rw [h]
  · simp [h, hx]

/-- The arbiter writes memory by the two pushes of a dispatch (`60_exceptions.md` R320). -/
theorem State.gatedWrites_arbitrate (s : State) : s.mem.GatedWrites s.arbitrate.mem := by
  obtain h | ⟨x, c, vec, -, h⟩ := s.arbitrate_frame
  · exact .of_eq (by rw [h])
  · simp only [h, State.mem_dispatch, State.mem_push8, State.mem_setConsole, State.mem_setTimer]
    exact .write (.write .none _ _) _ _

@[simp] theorem State.run_finishStep (n : Nat) (s : State) : (s.finishStep n).run = s.run := by
  obtain ⟨-, h⟩ | ⟨-, -, h⟩ | ⟨-, -, h⟩ := s.finishStep_cases n <;>
    simp [h, State.accountStates_eq]

@[simp] theorem State.error_finishStep (n : Nat) (s : State) : (s.finishStep n).error = s.error := by
  obtain ⟨-, h⟩ | ⟨-, -, h⟩ | ⟨-, -, h⟩ := s.finishStep_cases n <;>
    simp [h, State.accountStates_eq]

theorem State.gatedWrites_finishStep (n : Nat) (s : State) :
    s.mem.GatedWrites (s.finishStep n).mem := by
  have hmem : ((s.timerAdvance n).accountStates n).mem = s.mem := by
    rw [State.accountStates_eq, State.mem_setHarness, State.mem_timerAdvance]
  obtain ⟨-, h⟩ | ⟨-, -, h⟩ | ⟨-, -, h⟩ := s.finishStep_cases n <;> rw [h]
  · exact .none
  · exact .of_eq hmem
  · exact hmem ▸ State.gatedWrites_arbitrate _

/-- The timer's advance keeps the accumulator below a tick, and neither the account nor the arbiter
touches it (`60_exceptions.md` R330). -/
theorem State.AccBelowTick.finishStep {s : State} (hs : s.AccBelowTick) (n : Nat) :
    (s.finishStep n).AccBelowTick := by
  have hlt := Timer.acc_advance_lt n s.timer
  obtain ⟨-, h⟩ | ⟨-, -, h⟩ | ⟨-, -, h⟩ := s.finishStep_cases n
  · rwa [h]
  all_goals simpa [State.AccBelowTick, h, State.accountStates_eq] using hlt

/-- A quantum in progress after the end of a CPU step was in progress before it, and has grown by the
step's states at most (`70_reset_and_hazards.md` R430). -/
theorem State.wait_of_finishStep {n : Nat} {s : State} {w : Wait}
    (hw : (s.finishStep n).harness.wait = some w) :
    ∃ w₀, s.harness.wait = some w₀ ∧ w.acc ≤ w₀.acc + n := by
  obtain ⟨-, h⟩ | ⟨-, -, h⟩ | ⟨-, -, h⟩ := s.finishStep_cases n
  · exact ⟨w, h ▸ hw, Nat.le_add_right _ _⟩
  all_goals
    rw [h] at hw
    simp only [State.harness_arbitrate, State.accountStates_eq, State.harness_setHarness,
      State.harness_timerAdvance, Option.map_eq_some_iff] at hw
    obtain ⟨w₀, hw₀, rfl⟩ := hw
    exact ⟨w₀, hw₀, le_rfl⟩

/-! ### The instructions -/

/-- The instructions write memory through the gate: `ST`, `CALL` and `PUSH` once, the others not at
all (R64). -/
theorem Effect.gatedWrites {i : Instr} {s t : State} (h : Effect i s t) : s.mem.GatedWrites t.mem := by
  cases h with
  | store a v => exact .write .none a v
  | call t => exact .write .none _ _
  | push v => exact State.mem_setReg s .sp _ ▸ .write .none _ v
  | inp gr p =>
    obtain ⟨x, y, hp, -⟩ := s.portIn_frame p
    exact .of_eq (by simp [hp])
  | out gr p =>
    obtain ⟨x, y, c, z, hp, -⟩ := s.portOut_frame p (s.reg gr)
    exact .of_eq (by simp [hp])
  | alu gr r => exact .of_eq (by simp [State.writeAlu_eq])
  | _ => exact .of_eq (by simp)

@[simp] theorem State.acc_portIn (s : State) (p : Byte) :
    (s.portIn p).2.timer.acc = s.timer.acc := by
  obtain h | ⟨-, h⟩ | ⟨-, h⟩ := s.portIn_snd_cases p <;> simp [h]

/-- A write of the timer's ports leaves the accumulator alone (`45_io_ports.md` R221; decision D11). -/
@[simp] theorem State.acc_portOut (s : State) (p v : Byte) :
    (s.portOut p v).timer.acc = s.timer.acc := by
  obtain h | ⟨z, h⟩ | h | h | h | h | h := s.portOut_cases p v <;> simp [h]

/-- No instruction touches the accumulator. -/
theorem Effect.acc_eq {i : Instr} {s t : State} (h : Effect i s t) : t.timer.acc = s.timer.acc := by
  cases h with
  | alu gr r => simp [State.writeAlu_eq]
  | _ => simp

/-- An instruction that sets the error clears `run` with it, and none sets `run`
(`40_execution_cycle.md` R135). -/
theorem Effect.errorStops {i : Instr} {s t : State} (h : Effect i s t) (hs : s.ErrorStops) :
    t.ErrorStops := by
  cases h with
  | portError | illFormed => exact fun _ => s.run_raiseError
  | halt => exact fun _ => rfl
  | inp gr p =>
    obtain ⟨x, y, hp, -⟩ := s.portIn_frame p
    simpa [State.ErrorStops, hp] using hs
  | out gr p =>
    obtain ⟨x, y, c, z, hp, -⟩ := s.portOut_frame p (s.reg gr)
    simpa [State.ErrorStops, hp] using hs
  | alu gr r => simpa [State.ErrorStops, State.writeAlu_eq] using hs
  | _ => simpa [State.ErrorStops] using hs

theorem Effect.harness_eq {i : Instr} {s t : State} (h : Effect i s t) : t.harness = s.harness := by
  obtain ⟨-, -, -, hh⟩ := h.sameHostInputs
  exact hh

/-! ### The CPU step -/

theorem State.gatedWrites_of_cpuStep {s t : State} (h : s.cpuStep = .next t) :
    s.mem.GatedWrites t.mem := by
  obtain ⟨-, rfl⟩ | ⟨i, u, -, hx, rfl⟩ := State.cpuStep_cases h
  · exact .of_eq s.mem_raiseError
  · have hexec : s.mem.GatedWrites u.mem := s.mem_advancePc i.size ▸ (effect_of_exec hx).gatedWrites
    exact hexec.trans (u.gatedWrites_finishStep _)

theorem State.AccBelowTick.cpuStep {s t : State} (hs : s.AccBelowTick) (h : s.cpuStep = .next t) :
    t.AccBelowTick := by
  obtain ⟨-, rfl⟩ | ⟨i, u, -, hx, rfl⟩ := State.cpuStep_cases h
  · exact hs
  · have hu : u.AccBelowTick := by
      rw [State.AccBelowTick, (effect_of_exec hx).acc_eq]
      exact hs
    exact hu.finishStep _

theorem State.ErrorStops.cpuStep {s t : State} (hs : s.ErrorStops) (h : s.cpuStep = .next t) :
    t.ErrorStops := by
  obtain ⟨-, rfl⟩ | ⟨i, u, -, hx, rfl⟩ := State.cpuStep_cases h
  · exact fun _ => s.run_raiseError
  · have hu : u.ErrorStops := (effect_of_exec hx).errorStops hs
    simpa [State.ErrorStops] using hu

/-- A CPU step begins no quantum, and adds at most 4 states to the one in progress
(`40_execution_cycle.md` R141). -/
theorem State.wait_of_cpuStep {s t : State} (h : s.cpuStep = .next t) {w : Wait}
    (hw : t.harness.wait = some w) : ∃ w₀, s.harness.wait = some w₀ ∧ w.acc ≤ w₀.acc + 4 := by
  obtain ⟨-, rfl⟩ | ⟨i, u, -, hx, rfl⟩ := State.cpuStep_cases h
  · exact ⟨w, hw, Nat.le_add_right _ _⟩
  · obtain ⟨w₀, hw₀, hle⟩ := State.wait_of_finishStep hw
    rw [(effect_of_exec hx).harness_eq, State.harness_advancePc] at hw₀
    exact ⟨w₀, hw₀, hle.trans (Nat.add_le_add_left (statesOf_le i) _)⟩

/-! ### The host -/

/-- A quantum that the head of a wait loop begins starts from 0 (`70_reset_and_hazards.md` R430). -/
theorem State.acc_of_openQuantum {s : State} {k : WaitKind} {w : Wait}
    (hw : (s.openQuantum k).harness.wait = some w) : w.acc = 0 := by
  simp only [State.openQuantum, State.harness_setHarness] at hw
  split at hw <;> cases hw
  rfl

/-- The service touches the SIO and the host's own state only (`70_reset_and_hazards.md` R431). -/
theorem State.service_frame (s : State) : ∃ x g, s.service = (s.setSio x).setHarness g := by
  have hdrain : ∃ x g, s.drainTx = (s.setSio x).setHarness g := by
    obtain ⟨-, h⟩ | ⟨-, h⟩ := s.drainTx_cases
    · exact ⟨s.sio, s.harness, h⟩
    · exact ⟨_, _, h⟩
  obtain ⟨x, g, hd⟩ := hdrain
  rw [State.service, hd]
  obtain ⟨-, h⟩ | ⟨b, q, -, -, h⟩ := ((s.setSio x).setHarness g).deliverRx_cases <;> rw [h]
  · exact ⟨x, g, rfl⟩
  · exact ⟨_, _, rfl⟩

/-- The end of a quantum touches the SIO and the host's own state only (`70_reset_and_hazards.md`
R432). -/
theorem State.endQuantum_frame (s : State) (w : Wait) :
    ∃ x g, s.endQuantum w = (s.setSio x).setHarness g := by
  obtain ⟨x, g, h⟩ := s.service_frame
  rw [State.endQuantum, h]
  exact ⟨x, _, rfl⟩

/-- The host's events write memory through the gate: set-memory once, the others not at all
(R64; decision D19). -/
theorem State.gatedWrites_of_applyEvent {s t : State} {e : Event} (h : s.applyEvent e = .next t) :
    s.mem.GatedWrites t.mem := by
  cases e
  case setMem a v => cases h; exact .write .none _ _
  case setReg r v => cases h; cases r <;> exact .of_eq (by simp [State.setHostReg])
  case setFlag f v => cases h; cases f <;> exact .none
  case write =>
    simp only [State.applyEvent] at h
    split at h <;> cases h
    exact .none
  all_goals cases h; exact .none

/-- What an event can do to the error flag, the timer and the quantum: the reset, the wait events, and
the others, which leave all three alone. -/
theorem State.applyEvent_cases {s t : State} {e : Event} (h : s.applyEvent e = .next t) :
    t = s.resetEvent ∨ (∃ k, t = s.openQuantum k) ∨
      (t.error = s.error ∧ t.timer = s.timer ∧ t.harness.wait = s.harness.wait) := by
  cases e
  case reset => cases h; exact .inl rfl
  case waitStates | waitMs | waitSec | waitSerial | waitStop => cases h; exact .inr (.inl ⟨_, rfl⟩)
  case write =>
    simp only [State.applyEvent] at h
    split at h <;> cases h
    exact .inr (.inr ⟨rfl, rfl, rfl⟩)
  case setReg r v => cases h; cases r <;> exact .inr (.inr (by simp [State.setHostReg]))
  case setFlag f v => cases h; cases f <;> exact .inr (.inr ⟨rfl, rfl, rfl⟩)
  all_goals cases h; exact .inr (.inr ⟨rfl, rfl, rfl⟩)

/-- No event sets the error flag (`10_state.md` R33). -/
theorem State.error_of_applyEvent {s t : State} {e : Event} (h : s.applyEvent e = .next t)
    (hs : s.error = false) : t.error = false := by
  obtain rfl | ⟨k, rfl⟩ | ⟨herr, -, -⟩ := State.applyEvent_cases h
  · rfl
  · exact hs
  · rw [herr, hs]

theorem State.AccBelowTick.applyEvent {s t : State} {e : Event} (hs : s.AccBelowTick)
    (h : s.applyEvent e = .next t) : t.AccBelowTick := by
  obtain rfl | ⟨k, rfl⟩ | ⟨-, htimer, -⟩ := State.applyEvent_cases h
  · exact Nat.zero_lt_succ _
  · exact hs
  · rwa [State.AccBelowTick, htimer]

/-- Outside a wait event a quantum after an event is one that it began, from 0. -/
theorem State.acc_of_applyEvent {s t : State} {e : Event} (h : s.applyEvent e = .next t)
    (hs : s.harness.wait = none) {w : Wait} (hw : t.harness.wait = some w) : w.acc = 0 := by
  obtain rfl | ⟨k, rfl⟩ | ⟨-, -, hwait⟩ := State.applyEvent_cases h
  · exact absurd (hs.symm.trans hw) nofun
  · exact State.acc_of_openQuantum hw
  · exact absurd ((hwait.trans hs).symm.trans hw) nofun

/-! ### The whole step -/

/-- Whichever agent moves, memory changes by writes through the gate only (R64). -/
theorem State.gatedWrites_of_turn {s t : State} (h : s.turn = .next t) :
    s.mem.GatedWrites t.mem := by
  obtain ⟨-, ⟨-, hcpu, -⟩ | ⟨w, -, rfl⟩ | ⟨e, rest, -, -, he⟩ | ⟨-, -, -, rfl⟩⟩ := State.turn_cases h
  · exact State.gatedWrites_of_cpuStep hcpu
  · obtain ⟨x, g, hq⟩ := s.endQuantum_frame w
    exact .of_eq (by rw [hq]; rfl)
  · exact (State.gatedWrites_of_applyEvent he :)
  · exact .none

/-- ROM reads after a turn as before it (R65). -/
theorem State.readMem_rom_of_turn {s t : State} (h : s.turn = .next t) {a : Byte}
    (ha : Config.romStart ≤ a) : t.readMem a = s.readMem a :=
  (State.gatedWrites_of_turn h).read_rom ha

theorem State.AccBelowTick.turn {s t : State} (hs : s.AccBelowTick) (h : s.turn = .next t) :
    t.AccBelowTick := by
  obtain ⟨-, ⟨-, hcpu, -⟩ | ⟨w, -, rfl⟩ | ⟨e, rest, -, -, he⟩ | ⟨-, -, -, rfl⟩⟩ := State.turn_cases h
  · exact hs.cpuStep hcpu
  · obtain ⟨x, g, hq⟩ := s.endQuantum_frame w
    rw [hq]; exact hs
  · have hrest : (s.withEvents rest).AccBelowTick := hs
    exact hrest.applyEvent he
  · exact hs

/-- A turn starts without an error, and the CPU step alone can raise one. -/
theorem State.ErrorStops.turn {s t : State} (hs : s.ErrorStops) (h : s.turn = .next t) :
    t.ErrorStops := by
  obtain ⟨herr, ⟨-, hcpu, -⟩ | ⟨w, -, rfl⟩ | ⟨e, rest, -, -, he⟩ | ⟨-, -, -, rfl⟩⟩ :=
    State.turn_cases h
  · exact hs.cpuStep hcpu
  · obtain ⟨x, g, hq⟩ := s.endQuantum_frame w
    rw [hq]; exact hs
  · have hterr : t.error = false := State.error_of_applyEvent he herr
    exact fun ht => absurd (hterr.symm.trans ht) nofun
  · exact hs

/-- A CPU step starts in a quantum of at most 31 states and adds at most 4; the host begins each quantum
from 0 (`70_reset_and_hazards.md` R430). -/
theorem State.QuantumBounded.turn {s t : State} (hs : s.QuantumBounded) (h : s.turn = .next t) :
    t.QuantumBounded := by
  intro w hw
  obtain ⟨-, ⟨-, hcpu, hquantum⟩ | ⟨w₀, -, rfl⟩ | ⟨e, rest, hnone, -, he⟩ | ⟨-, -, -, rfl⟩⟩ :=
    State.turn_cases h
  · obtain ⟨w₀, hw₀, hle⟩ := State.wait_of_cpuStep hcpu hw
    obtain ⟨w₁, hw₁, hlt⟩ | ⟨hnone, -⟩ := hquantum
    · obtain rfl : w₁ = w₀ := Option.some.inj (hw₁.symm.trans hw₀)
      simp only [Config.serialUnitStates] at hlt
      omega
    · exact absurd (hnone.symm.trans hw₀) nofun
  · rw [State.acc_of_openQuantum hw]
    exact Nat.zero_le _
  · rw [State.acc_of_applyEvent he hnone hw]
    exact Nat.zero_le _
  · exact hs w hw

/-- Every turn keeps the invariant. -/
theorem State.Inv.turn {s t : State} (hs : s.Inv) (h : s.turn = .next t) : t.Inv where
  memCanonical := (State.gatedWrites_of_turn h).wf hs.memCanonical
  romIntact a ha := (State.readMem_rom_of_turn h ha).trans (hs.romIntact a ha)
  accBelowTick := hs.accBelowTick.turn h
  errorStops := hs.errorStops.turn h
  quantumBounded := hs.quantumBounded.turn h

/-! ### The boot contents -/

/-- Below ROM a cell holds 0 at boot (R78; decision D18). -/
theorem resetByte_of_lt {a : Nat} (h : a < 0xE0) : resetByte a = 0#8 := if_pos h

/-- From 0xE0 on the cells hold the IPL (R66). -/
theorem resetByte_rom (k : Nat) : resetByte (0xE0 + k) = iplBytes.getD k 0#8 := by
  have hge : ¬ 0xE0 + k < Config.romStart.toNat := Nat.not_lt.mpr (Nat.le_add_right 0xE0 k)
  have hsub : 0xE0 + k - Config.romStart.toNat = k := Nat.add_sub_cancel_left 0xE0 k
  rw [resetByte, if_neg hge, hsub]

/-- After reset every cell reads as its boot contents. -/
theorem State.readMem_reset (a : Byte) : State.reset.readMem a = resetByte a.toNat :=
  Memory.read_nil a

end Sys2Proof.Machine

namespace Sys2Proof.MemoryProofs

open Sys2Proof.Machine

/-- Settles O57: memory changes by writes through the gate only, and these leave ROM alone. -/
theorem noStepChangesRom : Obligations.NoStepChangesRom :=
  fun _ _ h _ ha => State.readMem_rom_of_turn h ha

/-- Settles O58: each part of the invariant is kept on its own. -/
theorem stepKeepsInvariant : Obligations.StepKeepsInvariant :=
  fun _ _ hs h => hs.turn h

/-- Settles O60: memory by the boot contents; all else is the reset state's own fields. -/
theorem resetStateValues : Obligations.ResetStateValues := by
  refine ⟨fun k hk => ?_, fun a ha => ?_, fun r => ?_, rfl, rfl, rfl, rfl, rfl, rfl, rfl, rfl, rfl,
    rfl, rfl⟩
  · have haddr : (BitVec.ofNat 8 (0xE0 + k)).toNat = 0xE0 + k := by
      rw [BitVec.toNat_ofNat]; omega
    rw [State.readMem_reset, haddr, resetByte_rom]
    rfl
  · rw [State.readMem_reset, resetByte_of_lt ha]
  · cases r <;> rfl

end Sys2Proof.MemoryProofs

/-! ## Encoding and decoding (`30_encoding.md`)

First what the fields of an instruction byte hold, then the decoder on an encoded instruction and on
an illegal byte, then that every byte begins an encoding or is illegal. The two directions of the
round trip and the legality of a byte follow from these three facts. -/

namespace Sys2Proof

/-! ### The fields of an instruction byte (R91) -/

theorem toNat_opField (b : Byte) : (opField b).toNat = b.toNat / 16 := by
  simp only [opField, BitVec.extractLsb'_toNat, Nat.shiftRight_eq_div_pow]
  omega

theorem toNat_grField (b : Byte) : (grField b).toNat = b.toNat / 4 % 4 := by
  simp only [grField, BitVec.extractLsb'_toNat, Nat.shiftRight_eq_div_pow]

theorem toNat_xrField (b : Byte) : (xrField b).toNat = b.toNat % 4 := by
  simp only [xrField, BitVec.extractLsb'_toNat, Nat.shiftRight_zero]

theorem toNat_instByte (op : BitVec 4) (gr xr : BitVec 2) :
    (instByte op gr xr).toNat = 16 * op.toNat + 4 * gr.toNat + xr.toNat := by
  have happend : (instByte op gr xr).toNat = (op.toNat <<< 2 ||| gr.toNat) <<< 2 ||| xr.toNat := rfl
  rw [happend, ← Nat.shiftLeft_add_eq_or_of_lt gr.isLt, ← Nat.shiftLeft_add_eq_or_of_lt xr.isLt,
    Nat.shiftLeft_eq, Nat.shiftLeft_eq]
  omega

@[simp] theorem opField_instByte (op : BitVec 4) (gr xr : BitVec 2) :
    opField (instByte op gr xr) = op := by
  apply BitVec.eq_of_toNat_eq
  rw [toNat_opField, toNat_instByte]
  omega

@[simp] theorem grField_instByte (op : BitVec 4) (gr xr : BitVec 2) :
    grField (instByte op gr xr) = gr := by
  apply BitVec.eq_of_toNat_eq
  rw [toNat_grField, toNat_instByte]
  omega

@[simp] theorem xrField_instByte (op : BitVec 4) (gr xr : BitVec 2) :
    xrField (instByte op gr xr) = xr := by
  apply BitVec.eq_of_toNat_eq
  rw [toNat_xrField, toNat_instByte]
  omega

theorem instByte_fields (b : Byte) : instByte (opField b) (grField b) (xrField b) = b := by
  apply BitVec.eq_of_toNat_eq
  rw [toNat_instByte, toNat_opField, toNat_grField, toNat_xrField]
  omega

@[simp] theorem Reg.ofField_field (r : Reg) : Reg.ofField r.field = r := by
  cases r <;> rfl

@[simp] theorem XR.ofField_field (m : XR) : XR.ofField m.field = m := by
  cases m <;> rfl

theorem Reg.field_ofField (f : BitVec 2) : (Reg.ofField f).field = f := by
  revert f
  decide

theorem XR.field_ofField (f : BitVec 2) : (XR.ofField f).field = f := by
  revert f
  decide

/-- Every byte is the instruction byte of an opcode, a register and an addressing mode (R91). -/
theorem exists_instByte (b : Byte) :
    ∃ (op : BitVec 4) (gr : Reg) (xr : XR), instByte op gr.field xr.field = b := by
  refine ⟨opField b, Reg.ofField (grField b), XR.ofField (xrField b), ?_⟩
  rw [Reg.field_ofField, XR.field_ofField, instByte_fields]

/-! ### The decoder on an encoding and on an illegal byte -/

theorem decodeAddress_of_isAddress {e : DecodeError} {xr : XR} (h : xr.isAddress = true)
    (f : Byte → Instr) : decodeAddress e xr f = decodeTwo f :=
  funext fun _ => if_pos h

/-- The decoder reads back an encoding: the opcode picks the row, the fields and the operand byte
give the operands (R95). -/
theorem decode_encode (i : Instr) (rest : List Byte) (h : i.WellFormed) :
    decode (encode i ++ rest) = .ok (i, rest) := by
  cases i with
  | no | ei | di | ret | reti | halt => rfl
  | shla | shll | shra | shrl | push | pop => simp [decode, encode, decodeOne]
  | st | jmp | jz | jc | jm | call | jnz | jnc | jnm =>
    simp [decode, encode, decodeAddress_of_isAddress h, decodeTwo]
  | ld | add | sub | cmp | and | or | xor | inp | out => simp [decode, encode, decodeTwo]

/-- A two-byte instruction cut after its first byte is truncated. -/
theorem decode_truncated {i : Instr} {b d : Byte} (h : i.WellFormed) (henc : encode i = [b, d]) :
    decode [b] = .error .truncated := by
  cases i with
  | no | ei | di | ret | reti | halt | shla | shll | shra | shrl | push | pop => cases henc
  | st | jmp | jz | jc | jm | call | jnz | jnc | jnm =>
    cases henc
    simp [decode, decodeAddress_of_isAddress h, decodeTwo]
  | ld | add | sub | cmp | and | or | xor | inp | out =>
    cases henc
    simp [decode, decodeTwo]

/-- An illegal byte is refused, whatever follows it (R97, R98). -/
theorem decode_of_mem_illegalBytes {b : Byte} (h : b ∈ Statements.illegalBytes)
    (rest : List Byte) : ∃ e, decode (b :: rest) = .error e := by
  fin_cases h <;> exact ⟨_, rfl⟩

/-! ### Every byte begins an encoding or is illegal -/

/-- What a byte is as the first of an instruction: the whole of a one-byte instruction, the first
byte of a two-byte instruction for every operand byte, or illegal (R95, R97). -/
inductive FirstByte (b : Byte) : Prop
  | oneByte (i : Instr) (hwf : i.WellFormed) (henc : encode i = [b])
  | twoByte (f : Byte → Instr) (hwf : ∀ d, (f d).WellFormed) (henc : ∀ d, encode (f d) = [b, d])
  | illegal (h : b ∈ Statements.illegalBytes)

/-- The row of an instruction with an address: legal but for the immediate mode (R93). -/
theorem FirstByte.address {b : Byte} (xr : XR) (f : Byte → Instr)
    (hwf : ∀ d, (f d).wf = xr.isAddress) (henc : ∀ d, encode (f d) = [b, d])
    (himm : xr = .imm → b ∈ Statements.illegalBytes) : FirstByte b := by
  cases xr with
  | imm => exact .illegal (himm rfl)
  | direct | g1 | g2 => exact .twoByte f hwf henc

theorem FirstByte.opNo (gr : Reg) (xr : XR) : FirstByte (instByte 0x0#4 gr.field xr.field) :=
  match gr, xr with
  | .g0, .direct => .oneByte .no rfl rfl
  | .g0, .g1 | .g0, .g2 | .g0, .imm => .illegal (by decide)
  | .g1, xr | .g2, xr | .sp, xr => .illegal (by cases xr <;> decide)

theorem FirstByte.opStore (gr : Reg) (xr : XR) : FirstByte (instByte 0x2#4 gr.field xr.field) :=
  .address xr (.st gr xr) (fun _ => rfl) (fun _ => rfl)
    (by rintro rfl; cases gr <;> decide)

theorem FirstByte.opShift (gr : Reg) (xr : XR) : FirstByte (instByte 0x9#4 gr.field xr.field) :=
  match xr with
  | .direct => .oneByte (.shla gr) rfl rfl
  | .g1 => .oneByte (.shll gr) rfl rfl
  | .g2 => .oneByte (.shra gr) rfl rfl
  | .imm => .oneByte (.shrl gr) rfl rfl

theorem FirstByte.opJump (gr : Reg) (xr : XR) : FirstByte (instByte 0xA#4 gr.field xr.field) :=
  match gr with
  | .g0 => .address xr (.jmp xr) (fun _ => rfl) (fun _ => rfl) (by rintro rfl; decide)
  | .g1 => .address xr (.jz xr) (fun _ => rfl) (fun _ => rfl) (by rintro rfl; decide)
  | .g2 => .address xr (.jc xr) (fun _ => rfl) (fun _ => rfl) (by rintro rfl; decide)
  | .sp => .address xr (.jm xr) (fun _ => rfl) (fun _ => rfl) (by rintro rfl; decide)

theorem FirstByte.opCall (gr : Reg) (xr : XR) : FirstByte (instByte 0xB#4 gr.field xr.field) :=
  match gr with
  | .g0 => .address xr (.call xr) (fun _ => rfl) (fun _ => rfl) (by rintro rfl; decide)
  | .g1 => .address xr (.jnz xr) (fun _ => rfl) (fun _ => rfl) (by rintro rfl; decide)
  | .g2 => .address xr (.jnc xr) (fun _ => rfl) (fun _ => rfl) (by rintro rfl; decide)
  | .sp => .address xr (.jnm xr) (fun _ => rfl) (fun _ => rfl) (by rintro rfl; decide)

theorem FirstByte.opPort (gr : Reg) (xr : XR) : FirstByte (instByte 0xC#4 gr.field xr.field) :=
  match xr with
  | .direct => .twoByte (.inp gr) (fun _ => rfl) (fun _ => rfl)
  | .imm => .twoByte (.out gr) (fun _ => rfl) (fun _ => rfl)
  | .g1 | .g2 => .illegal (by cases gr <;> decide)

theorem FirstByte.opStack (gr : Reg) (xr : XR) : FirstByte (instByte 0xD#4 gr.field xr.field) :=
  match xr with
  | .direct => .oneByte (.push gr) rfl rfl
  | .g2 => .oneByte (.pop gr) rfl rfl
  | .g1 | .imm => .illegal (by cases gr <;> decide)

theorem FirstByte.opSystem (gr : Reg) (xr : XR) : FirstByte (instByte 0xE#4 gr.field xr.field) :=
  match gr, xr with
  | .g0, .direct => .oneByte .ei rfl rfl
  | .g0, .imm => .oneByte .di rfl rfl
  | .sp, .direct => .oneByte .ret rfl rfl
  | .sp, .imm => .oneByte .reti rfl rfl
  | .g0, .g1 | .g0, .g2 | .sp, .g1 | .sp, .g2 => .illegal (by decide)
  | .g1, xr | .g2, xr => .illegal (by cases xr <;> decide)

theorem FirstByte.opHalt (gr : Reg) (xr : XR) : FirstByte (instByte 0xF#4 gr.field xr.field) :=
  match gr, xr with
  | .sp, .imm => .oneByte .halt rfl rfl
  | .sp, .direct | .sp, .g1 | .sp, .g2 => .illegal (by decide)
  | .g0, xr | .g1, xr | .g2, xr => .illegal (by cases xr <;> decide)

/-- The opcode table, read from the bytes: one row group for each opcode (R95). -/
theorem firstByte (b : Byte) : FirstByte b := by
  obtain ⟨⟨n, hn⟩, gr, xr, rfl⟩ := exists_instByte b
  match n, hn with
  | 0x0, _ => exact .opNo gr xr
  | 0x1, _ => exact .twoByte (.ld gr xr) (fun _ => rfl) (fun _ => rfl)
  | 0x2, _ => exact .opStore gr xr
  | 0x3, _ => exact .twoByte (.add gr xr) (fun _ => rfl) (fun _ => rfl)
  | 0x4, _ => exact .twoByte (.sub gr xr) (fun _ => rfl) (fun _ => rfl)
  | 0x5, _ => exact .twoByte (.cmp gr xr) (fun _ => rfl) (fun _ => rfl)
  | 0x6, _ => exact .twoByte (.and gr xr) (fun _ => rfl) (fun _ => rfl)
  | 0x7, _ => exact .twoByte (.or gr xr) (fun _ => rfl) (fun _ => rfl)
  | 0x8, _ => exact .twoByte (.xor gr xr) (fun _ => rfl) (fun _ => rfl)
  | 0x9, _ => exact .opShift gr xr
  | 0xA, _ => exact .opJump gr xr
  | 0xB, _ => exact .opCall gr xr
  | 0xC, _ => exact .opPort gr xr
  | 0xD, _ => exact .opStack gr xr
  | 0xE, _ => exact .opSystem gr xr
  | 0xF, _ => exact .opHalt gr xr
  | n + 16, hn => exact absurd hn (by omega)

/-! ### What decoding answers -/

/-- An encoding decodes to its own instruction and no other. -/
theorem eq_of_decode_encode {i j : Instr} {t r : List Byte} (hj : j.WellFormed)
    (h : decode (encode j ++ t) = .ok (i, r)) : j = i ∧ t = r := by
  rw [decode_encode j t hj] at h
  cases h
  exact ⟨rfl, rfl⟩

/-- Bytes that decode are an encoding and the bytes after it. -/
theorem wellFormed_and_eq_encode_of_decode {bs r : List Byte} {i : Instr}
    (h : decode bs = .ok (i, r)) : i.WellFormed ∧ bs = encode i ++ r := by
  suffices hbs : ∃ j t, j.WellFormed ∧ bs = encode j ++ t by
    obtain ⟨j, t, hj, rfl⟩ := hbs
    obtain ⟨rfl, rfl⟩ := eq_of_decode_encode hj h
    exact ⟨hj, rfl⟩
  cases bs with
  | nil => cases h
  | cons b t =>
    cases firstByte b with
    | oneByte j hwf henc => exact ⟨j, t, hwf, by rw [henc]; rfl⟩
    | twoByte f hwf henc =>
      cases t with
      | nil => exact absurd ((decode_truncated (hwf 0#8) (henc 0#8)).symm.trans h) nofun
      | cons d t => exact ⟨f d, t, hwf d, by rw [henc]; rfl⟩
    | illegal hb =>
      obtain ⟨e, he⟩ := decode_of_mem_illegalBytes hb t
      exact absurd (he.symm.trans h) nofun

/-- A legal byte and one more byte always hold a whole instruction (R90). -/
theorem exists_decode_of_notMem_illegalBytes {b : Byte} (h : b ∉ Statements.illegalBytes)
    (d : Byte) (rest : List Byte) : ∃ i r, decode (b :: d :: rest) = .ok (i, r) := by
  cases firstByte b with
  | oneByte i hwf henc =>
    have hdec := decode_encode i (d :: rest) hwf
    rw [henc] at hdec
    exact ⟨i, _, hdec⟩
  | twoByte f hwf henc =>
    have hdec := decode_encode (f d) rest (hwf d)
    rw [henc] at hdec
    exact ⟨f d, _, hdec⟩
  | illegal hb => exact absurd hb h

/-! ### The length (R99; decision D1) -/

theorem length_encode (i : Instr) : (encode i).length = i.size := by
  cases i <;> rfl

theorem toNat_instByte_div (op : BitVec 4) (gr xr : BitVec 2) :
    (instByte op gr xr).toNat / 16 = op.toNat := by
  rw [← toNat_opField, opField_instByte]

/-- The opcode of an encoding gives the length of its instruction. -/
theorem size_eq_of_cons_eq_encode {i : Instr} {b : Byte} {t r : List Byte}
    (h : b :: t = encode i ++ r) :
    i.size = if b.toNat / 16 ∈ [1, 2, 3, 4, 5, 6, 7, 8, 10, 11, 12] then 2 else 1 := by
  cases i
  all_goals
    cases h
    rw [toNat_instByte_div]
    rfl

end Sys2Proof

namespace Sys2Proof.EncodingProofs

/-- Settles O1: by the table row of the instruction. -/
theorem decodeInvertsEncode : Obligations.DecodeInvertsEncode :=
  decode_encode

/-- Settles O2: the bytes begin with an encoding, and that decodes to its own instruction only. -/
theorem encodeInvertsDecode : Obligations.EncodeInvertsDecode :=
  fun _ _ _ h => wellFormed_and_eq_encode_of_decode h

/-- Settles O3: an illegal byte is refused, and every other byte begins an encoding. -/
theorem illegalBytesAreTheListed : Obligations.IllegalBytesAreTheListed := by
  intro b d rest
  constructor
  · rintro ⟨i, r, h⟩ hillegal
    obtain ⟨e, he⟩ := decode_of_mem_illegalBytes hillegal (d :: rest)
    exact absurd (he.symm.trans h) nofun
  · exact fun hlegal => exists_decode_of_notMem_illegalBytes hlegal d rest

/-- Settles O4: the bytes taken are the encoding, whose opcode gives its length. -/
theorem lengthByOpcode : Obligations.LengthByOpcode := by
  intro b d rest r i h
  obtain ⟨-, hbytes⟩ := wellFormed_and_eq_encode_of_decode h
  have htaken : rest.length + 2 = i.size + r.length := by
    simpa [length_encode] using congrArg List.length hbytes
  exact ⟨size_eq_of_cons_eq_encode hbytes, by omega⟩

/-- Settles O5: each line is the round trip of one instruction, its encoding the word given. -/
theorem sampleWordsDecode : Obligations.SampleWordsDecode :=
  ⟨decode_encode (.ld .g0 .imm 0x05#8) [] rfl, decode_encode (.st .g1 .g2 0x30#8) [] rfl,
    decode_encode (.sub .g2 .g1 0x30#8) [] rfl, decode_encode (.shrl .g2) [] rfl,
    decode_encode (.jnz .direct 0x04#8) [] rfl, decode_encode (.out .g1 0x03#8) [] rfl,
    decode_encode (.pop .sp) [] rfl, decode_encode .reti [] rfl⟩

end Sys2Proof.EncodingProofs

/-! ## The execution cycle (`40_execution_cycle.md`)

First the two operand forms, then when a well-formed instruction raises an error, then which way a turn
and a CPU step go from a state given, and the statements of the family. -/

namespace Sys2Proof.Machine

/-! ### The operand forms (R133) -/

/-- The addition of bytes is the spec's `+8`, modulo 256 (`00_scope.md` R8). -/
theorem byte_add_eq_ofNat (a b : Byte) :
    a + b = BitVec.ofNat 8 ((a.toNat + b.toNat) % 256) := by
  apply BitVec.eq_of_toNat_eq
  rw [BitVec.toNat_add, BitVec.toNat_ofNat, Nat.mod_mod]

/-! ### The error of an instruction (R142) -/

theorem portInRange_eq_not (p : Byte) : portInRange p = !decide (16 ≤ p.toNat) := by
  rw [← decide_not, decide_eq_decide.mpr Nat.not_le]
  rfl

/-- `IN` and `OUT` with a port number out of range do nothing but raise the error (`45_io_ports.md`
R233). -/
theorem exec_of_portOutOfRange {i : Instr} (s : State)
    (h : Statements.portOutOfRange i = true) : exec i s = .next s.raiseError := by
  cases i
  case inp gr p | out gr p =>
    have hp : portInRange p = false := by
      rw [portInRange_eq_not]
      exact congrArg Bool.not h
    simp [exec, execIn, execOut, hp]
  all_goals cases h

theorem State.sameRun_portIn (s : State) (p : Byte) : SameRun s (s.portIn p).2 := by
  obtain ⟨x, y, h, -⟩ := s.portIn_frame p
  rw [h]; exact ⟨rfl, rfl⟩

theorem State.sameRun_portOut (s : State) (p v : Byte) : SameRun s (s.portOut p v) := by
  obtain ⟨x, y, c, z, h, -⟩ := s.portOut_frame p v
  rw [h]; exact ⟨rfl, rfl⟩

/-- A register write after an operation that keeps `run` and `error` keeps them too. -/
theorem SameRun.setReg {s t : State} (h : SameRun s t) (r : Reg) (v : Byte) :
    SameRun s (t.setReg r v) := by
  simpa [SameRun] using h

/-- Of the effects of a well-formed instruction whose port number, if it has one, is in range, only that
of `HALT` touches `run` or `error` (`10_state.md` R32, R33). -/
theorem Effect.sameRun_or_halt {i : Instr} {s t : State} (h : Effect i s t) (hwf : i.WellFormed)
    (hport : Statements.portOutOfRange i = false) :
    SameRun s t ∨ (i = .halt ∧ t = s.setRun false) := by
  cases h with
  | halt hi => exact .inr ⟨hi, rfl⟩
  | illFormed hi => exact absurd (hi.symm.trans hwf) nofun
  | portError gr p hi hp =>
    have hout : Statements.portOutOfRange i = !portInRange p := by
      rw [portInRange_eq_not, Bool.not_not]
      obtain rfl | rfl := hi <;> rfl
    rw [hp, hport] at hout
    cases hout
  | inp gr p => exact .inl ((s.sameRun_portIn p).setReg gr _)
  | out gr p => exact .inl (s.sameRun_portOut p _)
  | alu gr r => exact .inl (by simp [SameRun, State.writeAlu_eq])
  | _ => exact .inl (by simp [SameRun])

/-! ### Which way a turn goes -/

/-- When the CPU moves the turn is its step (R130, R138). -/
theorem State.turn_of_cpuMoves {s : State} (h : s.CpuMoves) : s.turn = s.cpuStep := by
  obtain ⟨⟨hrun, herr⟩, ⟨w, hw, hacc⟩ | ⟨hw, hev⟩⟩ := h
  · simp [State.turn, herr, hw, hrun, hacc]
  · simp [State.turn, herr, hw, hev, hrun]

/-- Stopped, with no wait in progress and no event left, nothing moves (R138; log entry 3). -/
theorem State.turn_of_stopped {s : State} (h : s.Stopped) (hw : s.harness.wait = none)
    (hev : s.harness.events = []) : s.turn = .next s := by
  obtain ⟨hrun, herr⟩ := h
  simp [State.turn, herr, hw, hev, hrun]

/-! ### Which way a CPU step goes (R130 to R132) -/

/-- Bytes at `PC` that decode are fetched as their instruction. -/
theorem State.fetch_of_decode {s : State} {i : Instr} {rest : List Byte}
    (h : decode [s.readMem s.pc, s.readMem (s.pc + 1#8)] = .ok (i, rest)) : s.fetch = .ok i := by
  rw [State.fetch, State.fetchBytes, h]

/-- An illegal byte at `PC` is not fetched, whatever the byte after it (decision D2). -/
theorem State.fetch_of_mem_illegalBytes {s : State}
    (h : s.readMem s.pc ∈ Statements.illegalBytes) : ∃ e, s.fetch = .error e := by
  obtain ⟨e, he⟩ := decode_of_mem_illegalBytes h [s.readMem (s.pc + 1#8)]
  exact ⟨e, by rw [State.fetch, State.fetchBytes, he]⟩

theorem State.cpuStep_of_fetch_error {s : State} {e : DecodeError} (h : s.fetch = .error e) :
    s.cpuStep = .next s.raiseError := by
  rw [State.cpuStep, h]

theorem State.cpuStep_of_exec {s t : State} {i : Instr} (h : s.fetch = .ok i)
    (hx : exec i (s.advancePc i.size) = .next t) :
    s.cpuStep = .next (t.finishStep (statesOf i)) := by
  simp only [State.cpuStep, h, hx]

/-- Raising an error sets `error`, clears `run`, and leaves all else but `PC` (R135; decision D3). -/
theorem State.inErrorFrom_raiseError (s : State) : Statements.InErrorFrom s s.raiseError :=
  ⟨rfl, rfl, fun r _ => s.reg_raiseError r, ⟨rfl, rfl, rfl⟩, rfl, fun _ _ => rfl,
    ⟨rfl, rfl, rfl, rfl⟩, rfl⟩

end Sys2Proof.Machine

namespace Sys2Proof.ExecutionCycleProofs

open Sys2Proof.Machine

/-- Settles O33: with a port number out of range the error is raised; else the effects of the
instructions leave `run` and `error` alone, but for `HALT`, which clears `run`. -/
theorem onlyPortRangeRaisesError : Obligations.OnlyPortRangeRaisesError := by
  intro i s t hwf herr h
  cases hport : Statements.portOutOfRange i with
  | true =>
    rw [exec_of_portOutOfRange s hport] at h
    cases h
    simp
  | false =>
    obtain ⟨hrun, hterr⟩ | ⟨hhalt, rfl⟩ := (effect_of_exec h).sameRun_or_halt hwf hport
    · simp [hterr, herr, hrun]
    · simp [herr, hhalt]

/-- Settles O36: the fetch refuses the byte, and raising the error is all the step does. -/
theorem illegalByteRaisesError : Obligations.IllegalByteRaisesError := by
  intro s hmoves hbyte
  obtain ⟨e, hfetch⟩ := State.fetch_of_mem_illegalBytes hbyte
  have hstep : step s = .next s.raiseError :=
    (State.turn_of_cpuMoves hmoves).trans (State.cpuStep_of_fetch_error hfetch)
  exact ⟨s.raiseError, hstep, s.inErrorFrom_raiseError⟩

/-- Settles O6. -/
theorem operandForms : Obligations.OperandForms :=
  fun s d => ⟨rfl, congrArg some (byte_add_eq_ofNat d s.g1), congrArg some (byte_add_eq_ofNat d s.g2),
    s.operand_imm d, fun _ _ h => s.operand_of_ea h⟩

/-- Settles O35: the turn is the CPU's, the fetch gives the instruction, and the end of the step is the
timer, the account and the arbiter. -/
theorem stepRunsDecodedInstruction : Obligations.StepRunsDecodedInstruction := by
  intro s t i rest hmoves hdec _ hexec
  have hfetch : s.fetch = .ok i := State.fetch_of_decode hdec
  exact (State.turn_of_cpuMoves hmoves).trans (State.cpuStep_of_exec hfetch hexec)

/-- Settles O38. -/
theorem stoppedMachineKeepsItsState : Obligations.StoppedMachineKeepsItsState :=
  fun _ hstopped hw hev => State.turn_of_stopped hstopped hw hev

end Sys2Proof.ExecutionCycleProofs

/-! ## Load and store (`41_load_store.md`)

First the instruction byte in the statements' arithmetic, then the frames of the two writes an
instruction of this family ends in, then the statements of the family. -/

namespace Sys2Proof

/-! ### The instruction byte as a number (R91) -/

theorem instByte_eq_firstByte (op : BitVec 4) (gr xr : BitVec 2) :
    instByte op gr xr = Statements.firstByte op.toNat gr.toNat xr.toNat := by
  have hlt := (instByte op gr xr).isLt
  apply BitVec.eq_of_toNat_eq
  rw [toNat_instByte] at hlt
  rw [toNat_instByte, Statements.firstByte, BitVec.toNat_ofNat, Nat.mod_eq_of_lt hlt]

end Sys2Proof

namespace Sys2Proof.Machine

/-! ### The frame of a register write (`10_state.md` R20) -/

theorem SameRegs.refl (l : List Reg) (s : State) : SameRegs l s s := fun _ _ => rfl

theorem SameMem.refl (l : List Byte) (s : State) : SameMem l s s := fun _ _ => rfl

theorem SameRest.refl (s : State) : SameRest s s :=
  ⟨rfl, ⟨rfl, rfl⟩, ⟨rfl, rfl, rfl, rfl⟩, rfl, rfl⟩

/-- A write to one of the excepted registers, after an operation that keeps all the others, keeps them
too. -/
theorem SameRegs.setReg {l : List Reg} {s t : State} {r : Reg} (h : SameRegs l s t) (hr : r ∈ l)
    (v : Byte) : SameRegs l s (t.setReg r v) := by
  intro q hq
  have hne : q ≠ r := fun hqr => hq (hqr ▸ hr)
  rw [State.reg_setReg, if_neg hne, h q hq]

/-- A register write after an operation that keeps memory keeps it too. -/
theorem SameMem.setReg {l : List Byte} {s t : State} (h : SameMem l s t) (r : Reg) (v : Byte) :
    SameMem l s (t.setReg r v) :=
  fun a ha => (t.readMem_setReg r v a).trans (h a ha)

/-- A register write after an operation that keeps `IE`, `run`, `error`, the peripherals and the host
keeps them too. -/
theorem SameRest.setReg {s t : State} (h : SameRest s t) (r : Reg) (v : Byte) :
    SameRest s (t.setReg r v) := by
  simpa [SameRest, SameRun, SameDevices, SameHost] using h

/-! ### The frame of a memory write (`20_memory.md` R63) -/

theorem lt_romStart_iff (a : Byte) : a < Config.romStart ↔ a.toNat < 0xE0 := Iff.rfl

/-- The byte written reads back in RAM, and as before in ROM. -/
theorem State.readMem_writeMem_self (s : State) (a v : Byte) :
    (s.writeMem a v).readMem a = if a.toNat < 0xE0 then v else s.readMem a := by
  simp only [State.readMem_writeMem, true_and, lt_romStart_iff]

theorem State.sameMem_writeMem (s : State) (a v : Byte) : SameMem [a] s (s.writeMem a v) :=
  fun _ hb => s.readMem_writeMem_ne v (List.ne_of_not_mem_cons hb)

theorem State.sameRegs_writeMem (s : State) (a v : Byte) : SameRegs [] s (s.writeMem a v) :=
  fun r _ => s.reg_writeMem a v r

/-! ### The store at an effective address (R151) -/

theorem exec_st_of_ea {gr : Reg} {xr : XR} {d a : Byte} {s : State} (h : s.ea xr d = some a) :
    exec (.st gr xr d) s = .next (s.writeMem a (s.reg gr)) := by
  simp only [exec, execSt, h]

end Sys2Proof.Machine

namespace Sys2Proof.LoadStoreProofs

open Sys2Proof.Machine

/-- Settles O7: the load is one register write of the operand. -/
theorem ldLoadsOperand : Obligations.LdLoadsOperand := by
  intro gr xr d s
  have hvalue : (s.setReg gr (s.operand xr d)).reg gr = s.operand xr d := by
    rw [State.reg_setReg, if_pos rfl]
  exact ⟨congrArg (fun b => [b, d]) (instByte_eq_firstByte 0x1#4 gr.field xr.field), rfl,
    s.setReg gr (s.operand xr d), rfl, hvalue,
    (SameRegs.refl [gr] s).setReg (List.mem_singleton_self gr) _, (SameFlags.refl s).setReg gr _,
    (SameMem.refl [] s).setReg gr _, (SameRest.refl s).setReg gr _, s.pc_setReg gr _⟩

/-- Settles O8: at an effective address the store is one memory write through the ROM gate. -/
theorem stStoresThroughGate : Obligations.StStoresThroughGate := by
  intro gr xr d a s hea
  exact ⟨congrArg (fun b => [b, d]) (instByte_eq_firstByte 0x2#4 gr.field xr.field), rfl,
    s.writeMem a (s.reg gr), exec_st_of_ea hea, s.readMem_writeMem_self a _,
    s.sameMem_writeMem a _, s.sameRegs_writeMem a _, SameFlags.refl s, SameRest.refl s, rfl⟩

end Sys2Proof.LoadStoreProofs

/-! ## Arithmetic and logic (`42_arithmetic_logic.md`)

First what the ALU computes, in the numbers of the statements, then what writing its result changes and
keeps, then the one law of the five instructions that write a register, and the statements of the
family. -/

namespace Sys2Proof.Machine

/-! ### The ALU (R160) -/

theorem signOf_eq_msb (v : Byte) : signOf v = v.msb := (BitVec.msb_eq_getLsbD_last v).symm

theorem zeroOf_iff (v : Byte) : zeroOf v = true ↔ v = 0#8 := beq_iff_eq

/-- Bit 8 of a 16-bit intermediate, as a digit of its value. -/
theorem getLsbD_eight (t : BitVec 16) : t.getLsbD 8 = decide (t.toNat / 256 % 2 = 1) := by
  rw [← BitVec.testBit_toNat, Nat.testBit_eq_decide_div_mod_eq]

theorem aluAdd_eq (a v : Byte) :
    aluAdd a v = aluWithCarry (decide (255 < a.toNat + v.toNat))
      (BitVec.ofNat 8 ((a.toNat + v.toNat) % 256)) := by
  have ha := a.isLt
  have hv := v.isLt
  have hsum : (a.setWidth 16 + v.setWidth 16).toNat = a.toNat + v.toNat := by
    rw [BitVec.toNat_add, BitVec.toNat_setWidth, BitVec.toNat_setWidth]
    omega
  have hvalue : (a.setWidth 16 + v.setWidth 16).setWidth 8
      = BitVec.ofNat 8 ((a.toNat + v.toNat) % 256) := by
    apply BitVec.eq_of_toNat_eq
    rw [BitVec.toNat_setWidth, hsum, BitVec.toNat_ofNat, Nat.mod_mod]
  have hcarry : (a.setWidth 16 + v.setWidth 16).getLsbD 8
      = decide (255 < a.toNat + v.toNat) := by
    rw [getLsbD_eight, hsum, decide_eq_decide]
    omega
  rw [aluAdd, aluOf16, hvalue, hcarry]

theorem aluSub_eq (a v : Byte) :
    aluSub a v = aluWithCarry (decide (a.toNat < v.toNat))
      (BitVec.ofNat 8 ((a.toNat + 256 - v.toNat) % 256)) := by
  have ha := a.isLt
  have hv := v.isLt
  have hdiff : (a.setWidth 16 - v.setWidth 16).toNat
      = (a.toNat + 65536 - v.toNat) % 65536 := by
    rw [BitVec.toNat_sub, BitVec.toNat_setWidth, BitVec.toNat_setWidth]
    omega
  have hvalue : (a.setWidth 16 - v.setWidth 16).setWidth 8
      = BitVec.ofNat 8 ((a.toNat + 256 - v.toNat) % 256) := by
    apply BitVec.eq_of_toNat_eq
    rw [BitVec.toNat_setWidth, hdiff, BitVec.toNat_ofNat]
    omega
  have hborrow : (a.setWidth 16 - v.setWidth 16).getLsbD 8 = decide (a.toNat < v.toNat) := by
    rw [getLsbD_eight, hdiff, decide_eq_decide]
    omega
  rw [aluSub, aluOf16, hvalue, hborrow]

/-! ### A result written (R161 to R166) -/

theorem State.sameRegs_writeAluFlags (l : List Reg) (s : State) (r : AluResult) :
    SameRegs l s (s.writeAluFlags r) :=
  fun q _ => s.reg_writeAluFlags r q

theorem State.sameMem_writeAluFlags (s : State) (r : AluResult) : SameMem [] s (s.writeAluFlags r) :=
  SameMem.refl [] s

theorem State.sameRest_writeAluFlags (s : State) (r : AluResult) : SameRest s (s.writeAluFlags r) :=
  SameRest.refl s

@[simp] theorem State.reg_writeAlu_self (s : State) (gr : Reg) (r : AluResult) :
    (s.writeAlu gr r).reg gr = r.value := by
  rw [State.writeAlu_eq, State.reg_setReg, if_pos rfl]

@[simp] theorem State.flagC_writeAlu (s : State) (gr : Reg) (r : AluResult) :
    (s.writeAlu gr r).flagC = r.c := State.flagC_setReg _ gr _

@[simp] theorem State.flagS_writeAlu (s : State) (gr : Reg) (r : AluResult) :
    (s.writeAlu gr r).flagS = r.s := State.flagS_setReg _ gr _

@[simp] theorem State.flagZ_writeAlu (s : State) (gr : Reg) (r : AluResult) :
    (s.writeAlu gr r).flagZ = r.z := State.flagZ_setReg _ gr _

@[simp] theorem State.pc_writeAlu (s : State) (gr : Reg) (r : AluResult) :
    (s.writeAlu gr r).pc = s.pc := State.pc_setReg _ gr _

theorem State.sameRegs_writeAlu (s : State) (gr : Reg) (r : AluResult) :
    SameRegs [gr] s (s.writeAlu gr r) :=
  (s.sameRegs_writeAluFlags [gr] r).setReg (List.mem_singleton_self gr) r.value

theorem State.sameMem_writeAlu (s : State) (gr : Reg) (r : AluResult) :
    SameMem [] s (s.writeAlu gr r) :=
  (s.sameMem_writeAluFlags r).setReg gr r.value

theorem State.sameRest_writeAlu (s : State) (gr : Reg) (r : AluResult) :
    SameRest s (s.writeAlu gr r) :=
  (s.sameRest_writeAluFlags r).setReg gr r.value

/-- The law of an ALU instruction that writes its register: it is enough that its meaning is one write
of the result of `f` with the carry of `carry`. -/
theorem aluLaw_of_exec_eq_writeAlu {mk : Reg → XR → Byte → Instr} {op : BitVec 4}
    {f : Byte → Byte → Byte} {carry : Byte → Byte → Bool}
    (hencode : ∀ gr xr d, encode (mk gr xr d) = [instByte op gr.field xr.field, d])
    (hstates : ∀ gr xr d, statesOf (mk gr xr d) = 4)
    (hexec : ∀ gr xr d s, exec (mk gr xr d) s = .next (s.writeAlu gr
      (aluWithCarry (carry (s.reg gr) (s.operand xr d)) (f (s.reg gr) (s.operand xr d))))) :
    Statements.AluLaw mk op.toNat true f carry := by
  intro gr xr d s
  have hbytes := hencode gr xr d
  rw [instByte_eq_firstByte] at hbytes
  exact ⟨hbytes, hstates gr xr d, _, hexec gr xr d s, s.reg_writeAlu_self gr _,
    s.flagC_writeAlu gr _, (s.flagS_writeAlu gr _).trans (signOf_eq_msb _),
    by rw [State.flagZ_writeAlu, aluWithCarry_z, zeroOf_iff],
    s.sameRegs_writeAlu gr _, s.sameMem_writeAlu gr _, s.sameRest_writeAlu gr _,
    s.pc_writeAlu gr _⟩

/-! ### The meanings of `ADD`, `SUB`, `CMP` (R161 to R163) -/

theorem exec_add_eq (gr : Reg) (xr : XR) (d : Byte) (s : State) :
    exec (.add gr xr d) s = .next (s.writeAlu gr (aluAdd (s.reg gr) (s.operand xr d))) := rfl

theorem exec_sub_eq (gr : Reg) (xr : XR) (d : Byte) (s : State) :
    exec (.sub gr xr d) s = .next (s.writeAlu gr (aluSub (s.reg gr) (s.operand xr d))) := rfl

theorem exec_cmp_eq (gr : Reg) (xr : XR) (d : Byte) (s : State) :
    exec (.cmp gr xr d) s = .next (s.writeAluFlags (aluSub (s.reg gr) (s.operand xr d))) := rfl

end Sys2Proof.Machine

namespace Sys2Proof.ArithmeticLogicProofs

open Sys2Proof.Machine

/-- Settles O9: the 16-bit sum is the sum modulo 256, with the carry in its bit 8. -/
theorem addGivesSumAndCarry : Obligations.AddGivesSumAndCarry :=
  aluLaw_of_exec_eq_writeAlu (op := 0x3#4) (fun _ _ _ => rfl) (fun _ _ _ => rfl)
    fun gr xr d s => by rw [exec_add_eq, aluAdd_eq]

/-- Settles O10: the 16-bit difference is the difference modulo 256, with the borrow in its bit 8. -/
theorem subGivesDifferenceAndBorrow : Obligations.SubGivesDifferenceAndBorrow :=
  aluLaw_of_exec_eq_writeAlu (op := 0x4#4) (fun _ _ _ => rfl) (fun _ _ _ => rfl)
    fun gr xr d s => by rw [exec_sub_eq, aluSub_eq]

/-- Settles O11: the result of `SUB`, of which only the flags are written. -/
theorem cmpSetsFlagsOnly : Obligations.CmpSetsFlagsOnly := by
  intro gr xr d s
  have hexec := exec_cmp_eq gr xr d s
  rw [aluSub_eq] at hexec
  exact ⟨congrArg (fun b => [b, d]) (instByte_eq_firstByte 0x5#4 gr.field xr.field), rfl,
    _, hexec, s.reg_writeAluFlags _ gr, s.flagC_writeAluFlags _,
    (s.flagS_writeAluFlags _).trans (signOf_eq_msb _),
    by rw [State.flagZ_writeAluFlags, aluWithCarry_z, zeroOf_iff],
    s.sameRegs_writeAluFlags [gr] _, s.sameMem_writeAluFlags _, s.sameRest_writeAluFlags _,
    s.pc_writeAluFlags _⟩

/-- Settles O12: the three meanings are the bitwise result with the carry 0. -/
theorem logicClearsCarry : Obligations.LogicClearsCarry :=
  ⟨aluLaw_of_exec_eq_writeAlu (op := 0x6#4) (fun _ _ _ => rfl) (fun _ _ _ => rfl)
      fun _ _ _ _ => rfl,
    aluLaw_of_exec_eq_writeAlu (op := 0x7#4) (fun _ _ _ => rfl) (fun _ _ _ => rfl)
      fun _ _ _ _ => rfl,
    aluLaw_of_exec_eq_writeAlu (op := 0x8#4) (fun _ _ _ => rfl) (fun _ _ _ => rfl)
      fun _ _ _ _ => rfl⟩

end Sys2Proof.ArithmeticLogicProofs

/-! ## Shifts (`43_shift.md`)

First the result of each shift bit by bit, then the one law of the four instructions, and the
statements of the family. -/

namespace Sys2Proof.Machine

/-! ### The results, bit by bit (R171 to R174) -/

theorem getLsbD_shiftLeft_one (a : Byte) {k : Nat} (hk : k < 8) :
    (a <<< 1).getLsbD k = (decide (k ≠ 0) && a.getLsbD (k - 1)) := by
  simp only [BitVec.getLsbD_shiftLeft, hk, decide_true, Bool.true_and, Nat.lt_one_iff, ne_eq,
    decide_not]

theorem getLsbD_shiftRight_one (a : Byte) (k : Nat) :
    (a >>> 1).getLsbD k = a.getLsbD (k + 1) := by
  rw [BitVec.getLsbD_ushiftRight, Nat.add_comm]

/-- The mask of `SHRA` selects bit 7. -/
theorem getLsbD_mask_sign : ∀ k < 8, (0x80#8).getLsbD k = decide (k = 7) := by decide

/-- The mask of `SHRL` selects the bits below 7. -/
theorem getLsbD_mask_below_sign : ∀ k < 8, (0x7F#8).getLsbD k = decide (k ≠ 7) := by decide

/-- Bit 7 comes from the masked operand, for the moved operand has nothing there; below it the mask
leaves nothing and the moved operand shows. -/
theorem getLsbD_shiftRightArith (a : Byte) {k : Nat} (hk : k < 8) :
    ((a &&& 0x80#8) ||| (a >>> 1)).getLsbD k
      = if k = 7 then a.getLsbD 7 else a.getLsbD (k + 1) := by
  rw [BitVec.getLsbD_or, BitVec.getLsbD_and, getLsbD_mask_sign k hk, getLsbD_shiftRight_one]
  by_cases h7 : k = 7
  · have hout : a.getLsbD (7 + 1) = false := a.getLsbD_of_ge 8 le_rfl
    subst h7
    rw [hout, if_pos rfl, decide_eq_true rfl, Bool.and_true, Bool.or_false]
  · rw [if_neg h7, decide_eq_false h7, Bool.and_false, Bool.false_or]

theorem getLsbD_shiftRightLogic (a : Byte) {k : Nat} (hk : k < 8) :
    ((a >>> 1) &&& 0x7F#8).getLsbD k = (decide (k ≠ 7) && a.getLsbD (k + 1)) := by
  rw [BitVec.getLsbD_and, getLsbD_mask_below_sign k hk, getLsbD_shiftRight_one, Bool.and_comm]

/-! ### The law of a shift (R170) -/

/-- It is enough that the meaning is one write of the result of `f`, with the carry of bit `out`, and
that `bit` gives the bits of `f`. -/
theorem shiftLaw_of_exec_eq_writeAlu {mk : Reg → Instr} {sub : BitVec 2} {out : Nat}
    {bit : Byte → Nat → Bool} {f : Byte → Byte}
    (hbit : ∀ a k, k < 8 → (f a).getLsbD k = bit a k)
    (hencode : ∀ gr, encode (mk gr) = [instByte 0x9#4 gr.field sub])
    (hstates : ∀ gr, statesOf (mk gr) = 3)
    (hexec : ∀ gr s, exec (mk gr) s = .next (s.writeAlu gr
      (aluWithCarry ((s.reg gr).getLsbD out) (f (s.reg gr))))) :
    Statements.ShiftLaw mk sub.toNat out bit := by
  intro gr s
  have hbyte : (encode (mk gr)).head? = some (Statements.firstByte 9 gr.field.toNat sub.toNat) := by
    rw [hencode, instByte_eq_firstByte]
    rfl
  refine ⟨hbyte, hstates gr, _, hexec gr s, ?_, s.flagC_writeAlu gr _, ?_, ?_,
    s.sameRegs_writeAlu gr _, s.sameMem_writeAlu gr _, s.sameRest_writeAlu gr _,
    s.pc_writeAlu gr _⟩
  all_goals rw [State.reg_writeAlu_self]
  · exact hbit (s.reg gr)
  · exact s.flagS_writeAlu gr _
  · rw [State.flagZ_writeAlu, aluWithCarry_z, zeroOf_iff, aluWithCarry_value]

end Sys2Proof.Machine

namespace Sys2Proof.ShiftProofs

open Sys2Proof.Machine

/-- Settles O13: both meanings are the same shift up by one, and only the sub-opcodes differ. -/
theorem leftShifts : Obligations.LeftShifts :=
  have hbit (a : Byte) (k : Nat) (hk : k < 8) := getLsbD_shiftLeft_one a hk
  ⟨shiftLaw_of_exec_eq_writeAlu (sub := 0b00#2) hbit (fun _ => rfl) (fun _ => rfl)
      fun _ _ => rfl,
    shiftLaw_of_exec_eq_writeAlu (sub := 0b01#2) hbit (fun _ => rfl) (fun _ => rfl)
      fun _ _ => rfl⟩

/-- Settles O14: both meanings shift down by one; the mask of the one brings bit 7 back, the mask of
the other clears it. -/
theorem rightShifts : Obligations.RightShifts :=
  ⟨shiftLaw_of_exec_eq_writeAlu (sub := 0b10#2) (fun a _ hk => getLsbD_shiftRightArith a hk)
      (fun _ => rfl) (fun _ => rfl) fun _ _ => rfl,
    shiftLaw_of_exec_eq_writeAlu (sub := 0b11#2) (fun a _ hk => getLsbD_shiftRightLogic a hk)
      (fun _ => rfl) (fun _ => rfl) fun _ _ => rfl⟩

end Sys2Proof.ShiftProofs

/-! ## Control transfer (`44_branch_call.md`)

First how frames compose, then what a write of `PC` and a push change and keep, then the one law of the
seven jumps, and the statements of the family. That of `CALL` followed by `RET` is composed of the
statements of `CALL` and of `RET`. -/

namespace Sys2Proof.Machine

/-! ### Frames one after another -/

theorem SameRegs.trans {l : List Reg} {s t u : State} (h : SameRegs l s t) (h' : SameRegs l t u) :
    SameRegs l s u :=
  fun r hr => (h' r hr).trans (h r hr)

theorem SameMem.trans {l : List Byte} {s t u : State} (h : SameMem l s t) (h' : SameMem l t u) :
    SameMem l s u :=
  fun a ha => (h' a ha).trans (h a ha)

theorem SameFlags.trans {s t u : State} (h : SameFlags s t) (h' : SameFlags t u) :
    SameFlags s u := by
  obtain ⟨hc, hs, hz⟩ := h
  obtain ⟨hc', hs', hz'⟩ := h'
  exact ⟨hc'.trans hc, hs'.trans hs, hz'.trans hz⟩

theorem SameRest.trans {s t u : State} (h : SameRest s t) (h' : SameRest t u) : SameRest s u := by
  obtain ⟨hie, ⟨hrun, herr⟩, ⟨htimer, hsio, hcon, hpio⟩, hhost, hfree⟩ := h
  obtain ⟨hie', ⟨hrun', herr'⟩, ⟨htimer', hsio', hcon', hpio'⟩, hhost', hfree'⟩ := h'
  exact ⟨hie'.trans hie, ⟨hrun'.trans hrun, herr'.trans herr⟩,
    ⟨htimer'.trans htimer, hsio'.trans hsio, hcon'.trans hcon, hpio'.trans hpio⟩,
    hhost'.trans hhost, hfree'.trans hfree⟩

/-- What keeps all of memory keeps it but for any addresses. -/
theorem SameMem.of_nil {s t : State} (h : SameMem [] s t) (l : List Byte) : SameMem l s t :=
  fun a _ => h a List.not_mem_nil

/-- An excepted `SP` that holds what it held is no exception. -/
theorem SameRegs.of_sp {s t : State} (h : SameRegs [.sp] s t) (hsp : t.sp = s.sp) :
    SameRegs [] s t := by
  intro r _
  by_cases hr : r = .sp
  · subst hr; exact hsp
  · exact h r (mt List.mem_singleton.mp hr)

/-! ### A write of `PC` -/

/-- A write of `PC` after an operation that keeps registers keeps them too. -/
theorem SameRegs.setPc {l : List Reg} {s t : State} (h : SameRegs l s t) (v : Byte) :
    SameRegs l s (t.setPc v) :=
  fun r hr => (t.reg_setPc v r).trans (h r hr)

/-- With an effective address a jump is a write of `PC`: not taken, of the value it has (R180). -/
theorem State.jumpIf_eq_setPc (s : State) (c : Bool) {xr : XR} {d a : Byte}
    (h : s.ea xr d = some a) : s.jumpIf c xr d = s.setPc (if c then a else s.pc) := by
  rw [s.jumpIf_of_ea c h]
  cases c <;> rfl

/-! ### A push (`40_execution_cycle.md` R136) -/

theorem State.sameRegs_push8 (s : State) (v : Byte) : SameRegs [.sp] s (s.push8 v) := by
  intro r hr
  rw [State.reg_push8, if_neg (List.ne_of_not_mem_cons hr)]

theorem State.sameMem_push8 (s : State) (v : Byte) : SameMem [s.sp - 1#8] s (s.push8 v) := by
  intro b hb
  rw [State.readMem_push8, if_neg fun ⟨hbsp, _⟩ => List.ne_of_not_mem_cons hb hbsp]

/-- The byte pushed reads back in RAM, and as before in ROM. -/
theorem State.readMem_push8_self (s : State) (v : Byte) :
    (s.push8 v).readMem (s.sp - 1#8)
      = if (s.sp - 1#8).toNat < 0xE0 then v else s.readMem (s.sp - 1#8) := by
  simp only [State.readMem_push8, true_and, lt_romStart_iff]

/-! ### The meanings of `CALL` and `RET` (R185, R189) -/

theorem exec_call_of_ea {xr : XR} {d a : Byte} {s : State} (h : s.ea xr d = some a) :
    exec (.call xr d) s = .next ((s.push8 s.pc).setPc a) := by
  simp only [exec, execCall, h]

theorem exec_ret_eq (s : State) :
    exec .ret s = .next ((s.setReg .sp (s.sp + 1#8)).setPc (s.readMem s.sp)) := rfl

/-! ### The law of a jump (R180) -/

/-- It is enough that the meaning is the conditional jump on `taken`. -/
theorem jumpLaw_of_exec_eq_jumpIf {mk : XR → Byte → Instr} {op : BitVec 4} {sel : BitVec 2}
    {taken : State → Bool}
    (hencode : ∀ xr d, encode (mk xr d) = [instByte op sel xr.field, d])
    (hstates : ∀ xr d, statesOf (mk xr d) = 3)
    (hexec : ∀ xr d s, exec (mk xr d) s = .next (s.jumpIf (taken s) xr d)) :
    Statements.JumpLaw mk op.toNat sel.toNat taken := by
  intro xr d a s hea
  have hbytes := hencode xr d
  rw [instByte_eq_firstByte] at hbytes
  have hnext := hexec xr d s
  rw [s.jumpIf_eq_setPc (taken s) hea] at hnext
  exact ⟨hbytes, hstates xr d, _, hnext, s.pc_setPc _, (SameRegs.refl [] s).setPc _,
    SameFlags.refl s, SameMem.refl [] s, SameRest.refl s⟩

end Sys2Proof.Machine

namespace Sys2Proof.BranchCallProofs

open Sys2Proof.Machine

/-- Settles O15: the seven meanings are one conditional jump, each on its own condition. -/
theorem jumpsFollowTheirCondition : Obligations.JumpsFollowTheirCondition :=
  ⟨jumpLaw_of_exec_eq_jumpIf (op := 0xA#4) (sel := 0b00#2) (fun _ _ => rfl) (fun _ _ => rfl)
      fun _ _ _ => rfl,
    jumpLaw_of_exec_eq_jumpIf (op := 0xA#4) (sel := 0b01#2) (fun _ _ => rfl) (fun _ _ => rfl)
      fun _ _ _ => rfl,
    jumpLaw_of_exec_eq_jumpIf (op := 0xA#4) (sel := 0b10#2) (fun _ _ => rfl) (fun _ _ => rfl)
      fun _ _ _ => rfl,
    jumpLaw_of_exec_eq_jumpIf (op := 0xA#4) (sel := 0b11#2) (fun _ _ => rfl) (fun _ _ => rfl)
      fun _ _ _ => rfl,
    jumpLaw_of_exec_eq_jumpIf (op := 0xB#4) (sel := 0b01#2) (fun _ _ => rfl) (fun _ _ => rfl)
      fun _ _ _ => rfl,
    jumpLaw_of_exec_eq_jumpIf (op := 0xB#4) (sel := 0b10#2) (fun _ _ => rfl) (fun _ _ => rfl)
      fun _ _ _ => rfl,
    jumpLaw_of_exec_eq_jumpIf (op := 0xB#4) (sel := 0b11#2) (fun _ _ => rfl) (fun _ _ => rfl)
      fun _ _ _ => rfl⟩

/-- Settles O16: at an effective address the call is a push of the return address and a write of
`PC`. -/
theorem callPushesReturnAddress : Obligations.CallPushesReturnAddress := by
  intro xr d a s hea
  exact ⟨congrArg (fun b => [b, d]) (instByte_eq_firstByte 0xB#4 0b00#2 xr.field), rfl,
    _, exec_call_of_ea hea, rfl, s.sp_push8 s.pc, s.readMem_push8_self s.pc,
    s.sameMem_push8 s.pc, (s.sameRegs_push8 s.pc).setPc a, SameFlags.refl s, SameRest.refl s⟩

/-- Settles O17: the return is a write of `SP` and a write of `PC`. -/
theorem retPopsPc : Obligations.RetPopsPc := by
  intro s
  exact ⟨rfl, rfl, _, exec_ret_eq s, rfl, rfl,
    ((SameRegs.refl [.sp] s).setReg (List.mem_singleton_self _) _).setPc _,
    SameFlags.refl s, SameMem.refl [] s, SameRest.refl s⟩

/-- Settles O18: the return pops the cell that the call wrote, and its `SP + 1` undoes the call's
`SP - 1`. -/
theorem retAfterCallReturns : Obligations.RetAfterCallReturns := by
  intro xr d a s hea hram
  obtain ⟨-, -, t, hcall, -, hsp, htop, hmem, hregs, hflags, hrest⟩ :=
    callPushesReturnAddress xr d a s hea
  obtain ⟨-, -, u, hret, hpc, hsp', hregs', hflags', hmem', hrest'⟩ := retPopsPc t
  have hpc_back : u.pc = s.pc := by rw [hpc, hsp, htop, if_pos hram]
  have hsp_back : u.sp = s.sp := by rw [hsp', hsp, BitVec.sub_add_cancel]
  exact ⟨t, u, hcall, hret, hpc_back, (hregs.trans hregs').of_sp hsp_back, hflags.trans hflags',
    hmem.trans (hmem'.of_nil _), hrest.trans hrest'⟩

end Sys2Proof.BranchCallProofs

/-! ## Ports (`45_io_ports.md`)

First the values and the control writes that depend on single bits, in the words of the statements, then
the one law of `IN` and the one law of `OUT`, each from what the port access gives, and the statements of
the family. -/

namespace Sys2Proof.Machine

/-! ### The status bytes and the control writes (R205, R207, R221, R225) -/

/-- The two status bits stand at 7 and 6, and nothing else is set (decision D13). -/
theorem Sio.status_eq (x : Sio) :
    x.status = BitVec.ofNat 8 ((if x.txEmpty then 128 else 0) + (if x.rxFull then 64 else 0)) := by
  unfold Sio.status
  cases x.txEmpty <;> cases x.rxFull <;> rfl

/-- The elapsed latch stands at bit 7, and nothing else is set (decision D13). -/
theorem Timer.status_eq (t : Timer) : t.status = if t.elapsed then 0x80#8 else 0x00#8 := by
  unfold Timer.status
  cases t.elapsed <;> rfl

/-- Both branches of the control write at once: bit 0 is the enable, and a 1 there clears the latch and
the counter. -/
theorem Timer.writeControl_eq (t : Timer) (v : Byte) :
    t.writeControl v =
      { t with
        ie := v.getLsbD 7
        enable := v.getLsbD 0
        elapsed := t.elapsed && !v.getLsbD 0
        counter := if v.getLsbD 0 then 0x00#8 else t.counter } := by
  unfold Timer.writeControl
  cases v.getLsbD 0 with
  | false => rw [Bool.not_false, Bool.and_true]; rfl
  | true => rw [Bool.not_true, Bool.and_false]; rfl

/-- Both branches of the control write at once: bit 7 is the enable, and only with it the four bits are
taken. -/
theorem Pio.writeControl_eq (x : Pio) (v : Byte) :
    x.writeControl v =
      { x with
        extEnable := v.getLsbD 7
        extOut := if v.getLsbD 7 then v.extractLsb' 0 4 else x.extOut } := by
  unfold Pio.writeControl
  cases v.getLsbD 7 <;> rfl

/-! ### The laws of `IN` and `OUT` (R231, R232) -/

theorem exec_inp_of_inRange {p : Byte} (hp : portInRange p = true) (gr : Reg) (s : State) :
    exec (.inp gr p) s = .next ((s.portIn p).2.setReg gr (s.portIn p).1) := if_pos hp

theorem exec_out_of_inRange {p : Byte} (hp : portInRange p = true) (gr : Reg) (s : State) :
    exec (.out gr p) s = .next (s.portOut p (s.reg gr)) := if_pos hp

/-- It is enough that the port gives `v` and leaves `x` and `y` as the SIO and the timer: what `IN` adds
is one register write. -/
theorem inAnswers_of_portIn {gr : Reg} {p v : Byte} {x : Sio} {y : Timer} {s : State}
    (hp : portInRange p = true) (h : s.portIn p = (v, (s.setSio x).setTimer y)) :
    Statements.InAnswers gr p v x y s := by
  have hexec := exec_inp_of_inRange hp gr s
  rw [h] at hexec
  have hrun : SameRun s ((s.setSio x).setTimer y) := ⟨rfl, rfl⟩
  have hflags : SameFlags s ((s.setSio x).setTimer y) := ⟨rfl, rfl, rfl⟩
  have hmem : SameMem [] s ((s.setSio x).setTimer y) := fun _ _ => rfl
  have hregs : SameRegs [gr] s ((s.setSio x).setTimer y) := fun r _ => by simp
  refine ⟨congrArg (fun b => [b, p]) (instByte_eq_firstByte 0xC#4 gr.field 0b00#2), rfl,
    _, hexec, ?value, ?sio, ?timer, ?console, ?pio, ?ie, hrun.setReg gr v, ⟨?harness, ?free⟩,
    hregs.setReg (List.mem_singleton_self gr) v, hflags.setReg gr v, hmem.setReg gr v, ?pc⟩
  all_goals simp

/-- It is enough that the port write leaves `x`, `y`, `c`, `z` as the peripherals: `OUT` is that write
and nothing else. -/
theorem outAnswers_of_portOut {gr : Reg} {p : Byte} {x : Sio} {y : Timer} {c : Console} {z : Pio}
    {s : State} (hp : portInRange p = true)
    (h : s.portOut p (s.reg gr) = (((s.setSio x).setTimer y).setConsole c).setPio z) :
    Statements.OutAnswers gr p x y c z s := by
  have hexec := exec_out_of_inRange hp gr s
  rw [h] at hexec
  exact ⟨congrArg (fun b => [b, p]) (instByte_eq_firstByte 0xC#4 gr.field 0b11#2), rfl,
    _, hexec, rfl, rfl, rfl, rfl, rfl, ⟨rfl, rfl⟩, ⟨rfl, rfl⟩, fun r _ => by simp, ⟨rfl, rfl, rfl⟩,
    fun _ _ => rfl, rfl⟩

/-! ### The ports that ignore a write (R224, R226) -/

/-- The output ports that no peripheral listens to. -/
def ignoredOutPorts : List Byte := [0x8#8, 0x9#8, 0xA#8, 0xB#8, 0xD#8, 0xE#8, 0xF#8]

theorem portInRange_of_mem_ignoredOutPorts : ∀ p ∈ ignoredOutPorts, portInRange p = true := by
  decide

theorem State.portOut_of_mem_ignoredOutPorts (s : State) {p : Byte} (hp : p ∈ ignoredOutPorts)
    (v : Byte) : s.portOut p v = s := by
  unfold ignoredOutPorts at hp
  fin_cases hp <;> rfl

/-! ### A port number out of range (R233) -/

/-- `IN` and `OUT` with a port number out of range answer the error state (R135; decision D3). -/
theorem exec_inErrorFrom_of_portOutOfRange {i : Instr} (s : State)
    (h : Statements.portOutOfRange i = true) :
    ∃ t, exec i s = .next t ∧ Statements.InErrorFrom s t :=
  ⟨s.raiseError, exec_of_portOutOfRange s h, s.inErrorFrom_raiseError⟩

end Sys2Proof.Machine

namespace Sys2Proof.PortProofs

open Sys2Proof.Machine

/-- Settles O22: each read gives its value and leaves the SIO and the timer as they are. -/
theorem inReadsPlainPorts : Obligations.InReadsPlainPorts :=
  fun _ _ =>
    ⟨inAnswers_of_portIn rfl rfl, inAnswers_of_portIn rfl rfl, inAnswers_of_portIn rfl rfl,
      inAnswers_of_portIn rfl rfl, inAnswers_of_portIn rfl rfl, inAnswers_of_portIn rfl rfl,
      inAnswers_of_portIn rfl rfl, inAnswers_of_portIn rfl rfl, inAnswers_of_portIn rfl rfl,
      inAnswers_of_portIn rfl rfl, inAnswers_of_portIn rfl rfl, inAnswers_of_portIn rfl rfl,
      inAnswers_of_portIn rfl rfl⟩

/-- Settles O23: the reads of ports 2 and 5 clear their latch, and ports 3 and 5 give a status byte. -/
theorem inReadsSioAndTimerPorts : Obligations.InReadsSioAndTimerPorts := by
  intro gr s
  rw [← Sio.status_eq, ← Timer.status_eq]
  exact ⟨inAnswers_of_portIn rfl rfl, inAnswers_of_portIn rfl rfl, inAnswers_of_portIn rfl rfl⟩

/-- Settles O24: each port writes one peripheral register, and the last seven none. -/
theorem outWritesPlainPorts : Obligations.OutWritesPlainPorts :=
  fun gr s =>
    ⟨outAnswers_of_portOut rfl rfl, outAnswers_of_portOut rfl rfl, outAnswers_of_portOut rfl rfl,
      outAnswers_of_portOut rfl rfl, outAnswers_of_portOut rfl rfl, outAnswers_of_portOut rfl rfl,
      fun p hp => outAnswers_of_portOut (portInRange_of_mem_ignoredOutPorts p hp)
        (s.portOut_of_mem_ignoredOutPorts hp (s.reg gr))⟩

/-- Settles O25: port 2 stores the byte, ports 5 and C are the two control writes. -/
theorem outWritesSioTimerAndPioControl : Obligations.OutWritesSioTimerAndPioControl := by
  intro gr s
  rw [← Timer.writeControl_eq, ← Pio.writeControl_eq]
  exact ⟨outAnswers_of_portOut rfl rfl, outAnswers_of_portOut rfl rfl, outAnswers_of_portOut rfl rfl⟩

/-- Settles O26: raising the error is all that either instruction does. -/
theorem portRangeRaisesError : Obligations.PortRangeRaisesError :=
  fun _ _ s hp =>
    ⟨exec_inErrorFrom_of_portOutOfRange s (decide_eq_true hp),
      exec_inErrorFrom_of_portOutOfRange s (decide_eq_true hp)⟩

end Sys2Proof.PortProofs

/-! ## Stack (`46_stack.md`)

First two rules on the registers a frame excepts, then what `PUSH` and `POP` mean by a push, the stack
pointer and a register write, then the statements of the family. That of `PUSH` followed by `POP` is
composed of the statements of `PUSH` and of `POP`. -/

namespace Sys2Proof.Machine

/-! ### The registers a frame excepts -/

/-- More exceptions say less. -/
theorem SameRegs.mono {l l' : List Reg} {s t : State} (h : SameRegs l s t) (hl : l ⊆ l') :
    SameRegs l' s t :=
  fun r hr => h r (mt (@hl r) hr)

/-- An excepted register that holds what it held is no exception. -/
theorem SameRegs.of_cons {l : List Reg} {r : Reg} {s t : State} (h : SameRegs (r :: l) s t)
    (hr : t.reg r = s.reg r) : SameRegs l s t := by
  intro q hq
  by_cases hqr : q = r
  · subst hqr; exact hr
  · exact h q (List.not_mem_cons_of_ne_of_not_mem hqr hq)

/-! ### The meanings of `PUSH` and `POP` (R250, R251) -/

/-- `PUSH` is a push of the register, read after `SP` is decremented (decision D8). -/
theorem exec_push_eq (gr : Reg) (s : State) :
    exec (.push gr) s = .next (s.push8 (if gr = .sp then s.sp - 1#8 else s.reg gr)) := by
  rw [← State.reg_setReg]
  rfl

/-- `POP` writes the register after `SP` is incremented (decision D8). -/
theorem exec_pop_eq (gr : Reg) (s : State) :
    exec (.pop gr) s = .next ((s.setReg .sp (s.sp + 1#8)).setReg gr (s.readMem s.sp)) := rfl

end Sys2Proof.Machine

namespace Sys2Proof.StackProofs

open Sys2Proof.Machine

/-- Settles O19: the instruction is one push. -/
theorem pushStoresBelow : Obligations.PushStoresBelow := by
  intro gr s
  exact ⟨congrArg some (instByte_eq_firstByte 0xD#4 gr.field 0b00#2), rfl,
    _, exec_push_eq gr s, s.sp_push8 _, s.readMem_push8_self _, s.sameMem_push8 _,
    s.sameRegs_push8 _, SameFlags.refl s, SameRest.refl s, s.pc_push8 _⟩

/-- Settles O20: the instruction is a write of `SP` and, after it, a write of the register. -/
theorem popLoadsTop : Obligations.PopLoadsTop := by
  intro gr s
  have hvalue : ((s.setReg .sp (s.sp + 1#8)).setReg gr (s.readMem s.sp)).reg gr = s.readMem s.sp := by
    rw [State.reg_setReg, if_pos rfl]
  have hsp (hgr : gr ≠ .sp) :
      ((s.setReg .sp (s.sp + 1#8)).setReg gr (s.readMem s.sp)).sp = s.sp + 1#8 := by
    rw [State.sp_setReg, if_neg hgr, State.sp_setReg, if_pos rfl]
  have hregs : SameRegs [gr, .sp] s (s.setReg .sp (s.sp + 1#8)) :=
    (SameRegs.refl _ s).setReg (by simp) _
  exact ⟨congrArg some (instByte_eq_firstByte 0xD#4 gr.field 0b10#2), rfl,
    _, exec_pop_eq gr s, hvalue, hsp, hregs.setReg List.mem_cons_self _,
    ((SameFlags.refl s).setReg .sp _).setReg gr _, ((SameMem.refl [] s).setReg .sp _).setReg gr _,
    ((SameRest.refl s).setReg .sp _).setReg gr _, by simp only [State.pc_setReg]⟩

/-- Settles O21: the `POP` reads the cell that the `PUSH` wrote, and its `SP + 1` undoes the `SP - 1` of
the `PUSH`. -/
theorem pushThenPopMoves : Obligations.PushThenPopMoves := by
  intro g h s hg hh hram
  obtain ⟨-, -, t, hpush, hsp, htop, hmem, hregs, hflags, hrest, hpc⟩ := pushStoresBelow g s
  obtain ⟨-, -, u, hpop, hvalue, hsp', hregs', hflags', hmem', hrest', hpc'⟩ := popLoadsTop h t
  have hmoved : u.reg h = s.reg g := by rw [hvalue, hsp, htop, if_pos hram, if_neg hg]
  have hsp_back : u.sp = s.sp := by rw [hsp' hh, hsp, BitVec.sub_add_cancel]
  have hregs_back : SameRegs [.sp, h] s u :=
    (hregs.mono (by simp)).trans (hregs'.mono (by simp))
  exact ⟨t, u, hpush, hpop, hmoved, hregs_back.of_cons hsp_back, hflags.trans hflags',
    hmem.trans (hmem'.of_nil _), hrest.trans hrest', hpc'.trans hpc⟩

end Sys2Proof.StackProofs

/-! ## System instructions (`47_system.md`)

First the bits of a flags byte, then the stack pointer two bytes away, then what the return from an
interrupt and a dispatch keep and where a dispatch's frame stands, then the statements of the family. That
of a dispatch followed by `RETI` is composed of the statement of `RETI` and the rules of the dispatch. -/

namespace Sys2Proof.Machine

/-! ### The bits of a flags byte (`10_state.md` R34) -/

theorem getElem_byteOfBool (b : Bool) (k : Nat) (hk : k < 8) :
    (byteOfBool b)[k] = (b && decide (k = 0)) := by
  cases b
  · simp [byteOfBool]
  · simp [byteOfBool, BitVec.getElem_one]

theorem State.getLsbD_flagsByte_ie (s : State) : s.flagsByte.getLsbD 7 = s.ie := by
  simp [State.flagsByte, getElem_byteOfBool]

theorem State.getLsbD_flagsByte_flagC (s : State) : s.flagsByte.getLsbD 2 = s.flagC := by
  simp [State.flagsByte, getElem_byteOfBool]

theorem State.getLsbD_flagsByte_flagS (s : State) : s.flagsByte.getLsbD 1 = s.flagS := by
  simp [State.flagsByte, getElem_byteOfBool]

theorem State.getLsbD_flagsByte_flagZ (s : State) : s.flagsByte.getLsbD 0 = s.flagZ := by
  simp [State.flagsByte, getElem_byteOfBool]

/-! ### Two bytes along the stack -/

theorem byte_add_one_add_one (a : Byte) : a + 1#8 + 1#8 = a + 2#8 := BitVec.add_assoc a 1#8 1#8

theorem byte_sub_one_sub_one (a : Byte) : a - 1#8 - 1#8 = a - 2#8 := BitVec.sub_sub a 1#8 1#8

/-! ### Frames one after another, by their parts -/

theorem SameRun.trans {s t u : State} (h : SameRun s t) (h' : SameRun t u) : SameRun s u :=
  ⟨h'.1.trans h.1, h'.2.trans h.2⟩

theorem SameDevices.trans {s t u : State} (h : SameDevices s t) (h' : SameDevices t u) :
    SameDevices s u := by
  obtain ⟨htimer, hsio, hcon, hpio⟩ := h
  obtain ⟨htimer', hsio', hcon', hpio'⟩ := h'
  exact ⟨htimer'.trans htimer, hsio'.trans hsio, hcon'.trans hcon, hpio'.trans hpio⟩

theorem SameHost.trans {s t u : State} (h : SameHost s t) (h' : SameHost t u) : SameHost s u :=
  ⟨h'.1.trans h.1, h'.2.trans h.2⟩

/-! ### The return from an interrupt (R263) -/

theorem exec_reti_eq (s : State) : exec .reti s = .next s.returnFromInterrupt := rfl

theorem State.sameRegs_returnFromInterrupt (s : State) : SameRegs [.sp] s s.returnFromInterrupt := by
  intro r hr
  rw [State.reg_returnFromInterrupt, if_neg (List.ne_of_not_mem_cons hr)]

theorem State.sameMem_returnFromInterrupt (s : State) : SameMem [] s s.returnFromInterrupt :=
  fun a _ => s.readMem_returnFromInterrupt a

theorem State.sameRun_returnFromInterrupt (s : State) : SameRun s s.returnFromInterrupt :=
  ⟨s.run_returnFromInterrupt, s.error_returnFromInterrupt⟩

theorem State.sameDevices_returnFromInterrupt (s : State) : SameDevices s s.returnFromInterrupt :=
  ⟨s.timer_returnFromInterrupt, s.sio_returnFromInterrupt, s.console_returnFromInterrupt,
    s.pio_returnFromInterrupt⟩

theorem State.sameHost_returnFromInterrupt (s : State) : SameHost s s.returnFromInterrupt :=
  ⟨s.harness_returnFromInterrupt, s.freeCount_returnFromInterrupt⟩

/-! ### The dispatch of an interrupt (`60_exceptions.md` R320) -/

theorem State.sp_dispatch_eq_sub_two (s : State) (vec : Byte) : (s.dispatch vec).sp = s.sp - 2#8 := by
  rw [State.sp_dispatch, byte_sub_one_sub_one]

theorem State.sameRegs_dispatch (s : State) (vec : Byte) : SameRegs [.sp] s (s.dispatch vec) := by
  intro r hr
  rw [State.reg_dispatch, if_neg (List.ne_of_not_mem_cons hr)]

theorem State.sameFlags_dispatch (s : State) (vec : Byte) : SameFlags s (s.dispatch vec) :=
  ⟨s.flagC_dispatch vec, s.flagS_dispatch vec, s.flagZ_dispatch vec⟩

theorem State.sameRun_dispatch (s : State) (vec : Byte) : SameRun s (s.dispatch vec) :=
  ⟨s.run_dispatch vec, s.error_dispatch vec⟩

theorem State.sameDevices_dispatch (s : State) (vec : Byte) : SameDevices s (s.dispatch vec) :=
  ⟨s.timer_dispatch vec, s.sio_dispatch vec, s.console_dispatch vec, s.pio_dispatch vec⟩

theorem State.sameHost_dispatch (s : State) (vec : Byte) : SameHost s (s.dispatch vec) :=
  ⟨s.harness_dispatch vec, s.freeCount_dispatch vec⟩

theorem State.sameMem_dispatch (s : State) (vec : Byte) :
    SameMem [s.sp - 1#8, s.sp - 2#8] s (s.dispatch vec) := by
  intro b hb
  obtain ⟨hpc, hflags⟩ : b ≠ s.sp - 1#8 ∧ b ≠ s.sp - 2#8 := by simpa using hb
  rw [State.readMem_dispatch, byte_sub_one_sub_one, if_neg fun h => hflags h.1,
    if_neg fun h => hpc h.1]

/-- The flags byte of the frame reads back in RAM, and the cell as before in ROM. -/
theorem State.readMem_dispatch_sub_two (s : State) (vec : Byte) :
    (s.dispatch vec).readMem (s.sp - 2#8)
      = if (s.sp - 2#8).toNat < 0xE0 then s.flagsByte else s.readMem (s.sp - 2#8) := by
  have hne : s.sp - 2#8 ≠ s.sp - 1#8 := by bv_omega
  simp only [State.readMem_dispatch, byte_sub_one_sub_one, hne, true_and, false_and, if_false,
    lt_romStart_iff]

/-- The return address of the frame reads back in RAM, and the cell as before in ROM: the push of the
flags byte goes to another cell. -/
theorem State.readMem_dispatch_sub_one (s : State) (vec : Byte) :
    (s.dispatch vec).readMem (s.sp - 1#8)
      = if (s.sp - 1#8).toNat < 0xE0 then s.pc else s.readMem (s.sp - 1#8) := by
  have hne : s.sp - 1#8 ≠ s.sp - 2#8 := by bv_omega
  simp only [State.readMem_dispatch, byte_sub_one_sub_one, hne, true_and, false_and, if_false,
    lt_romStart_iff]

end Sys2Proof.Machine

namespace Sys2Proof.SystemProofs

open Sys2Proof.Machine

/-- Settles O29: the return's two pops and the load of the flags byte, and what they keep. -/
theorem retiRestoresFrame : Obligations.RetiRestoresFrame := by
  intro s
  have hsp : s.returnFromInterrupt.sp = s.sp + 2#8 := by
    rw [State.sp_returnFromInterrupt, byte_add_one_add_one]
  exact ⟨rfl, rfl, _, exec_reti_eq s, s.pc_returnFromInterrupt, hsp, s.ie_returnFromInterrupt,
    s.flagC_returnFromInterrupt, s.flagS_returnFromInterrupt, s.flagZ_returnFromInterrupt,
    s.sameRegs_returnFromInterrupt, s.sameMem_returnFromInterrupt, s.sameRun_returnFromInterrupt,
    s.sameDevices_returnFromInterrupt, s.sameHost_returnFromInterrupt⟩

/-- Settles O43: `RETI` pops the two cells that the dispatch wrote, whose flags byte holds `IE`, `C`, `S`
and `Z`, and its `SP + 2` undoes the dispatch's `SP - 2`. -/
theorem retiInvertsDispatch : Obligations.RetiInvertsDispatch := by
  intro s vec hie hpcRam hflagsRam
  obtain ⟨-, -, t, hreti, hpc, hsp, htie, hc, hs, hz, hregs, hmem, hrun, hdev, hhost⟩ :=
    retiRestoresFrame (s.dispatch vec)
  have hcell : s.sp - 2#8 + 1#8 = s.sp - 1#8 := by bv_omega
  have htop : (s.dispatch vec).readMem (s.dispatch vec).sp = s.flagsByte := by
    rw [State.sp_dispatch_eq_sub_two, State.readMem_dispatch_sub_two, if_pos hflagsRam]
  have hpc_back : t.pc = s.pc := by
    rw [hpc, State.sp_dispatch_eq_sub_two, hcell, State.readMem_dispatch_sub_one, if_pos hpcRam]
  have hsp_back : t.sp = s.sp := by
    rw [hsp, State.sp_dispatch_eq_sub_two, BitVec.sub_add_cancel]
  have hie_back : t.ie = true := by rw [htie, htop, State.getLsbD_flagsByte_ie, hie]
  have hflags_back : SameFlags s t := by
    rw [htop] at hc hs hz
    exact ⟨hc.trans s.getLsbD_flagsByte_flagC, hs.trans s.getLsbD_flagsByte_flagS,
      hz.trans s.getLsbD_flagsByte_flagZ⟩
  exact ⟨t, hreti, hpc_back, hie_back, hflags_back,
    ((s.sameRegs_dispatch vec).trans hregs).of_sp hsp_back,
    (s.sameMem_dispatch vec).trans (hmem.of_nil _), (s.sameRun_dispatch vec).trans hrun,
    (s.sameDevices_dispatch vec).trans hdev, (s.sameHost_dispatch vec).trans hhost⟩

/-- Settles O27: the meaning answers the state it is given. -/
theorem noDoesNothing : Obligations.NoDoesNothing :=
  ⟨rfl, rfl, fun _ => rfl⟩

/-- Settles O28: the two meanings are writes of `IE`. -/
theorem eiSetsDiClearsIe : Obligations.EiSetsDiClearsIe :=
  ⟨rfl, rfl, rfl, rfl, fun _ => ⟨rfl, rfl⟩⟩

/-- Settles O30: the meaning is a write of `run`. -/
theorem haltClearsRun : Obligations.HaltClearsRun :=
  ⟨rfl, rfl, fun _ => rfl⟩

end Sys2Proof.SystemProofs

/-! ## Interrupts and the timer (`60_exceptions.md`)

First the cases of a tick and of an advance of the timer and a run of ticks from counter 0, then the
arbiter's branches by the sources that request, then the flags byte of a dispatch as a number, then what
becomes of a latched request, and the statements of the family. -/

namespace Sys2Proof.Machine

/-! ### The tick (R331) -/

theorem Timer.tick_of_counter_eq {t : Timer} (h : t.counter = t.period) :
    t.tick = { t with counter := 0x00#8, elapsed := true, pending := t.pending || t.ie } :=
  if_pos h

theorem Timer.tick_of_counter_ne {t : Timer} (h : t.counter ≠ t.period) :
    t.tick = { t with counter := t.counter + 1#8 } :=
  if_neg h

/-! ### The advance (R330; decision D9) -/

theorem Timer.advance_of_lt {n : Nat} {t : Timer} (h : t.acc + n < 32768) :
    Timer.advance n t = { t with acc := t.acc + n } :=
  if_pos h

/-- At the end of a tick's states the accumulator drops the excess, and the enable gates the tick. -/
theorem Timer.advance_of_le {n : Nat} {t : Timer} (h : 32768 ≤ t.acc + n) :
    Timer.advance n t =
      if t.enable then Timer.tick { t with acc := 0 } else { t with acc := 0 } :=
  if_neg (Nat.not_lt.mpr h)

/-! ### A run of ticks (decision D10) -/

theorem ticks_succ_eq_tick (k : Nat) (t : Timer) :
    Statements.ticks (k + 1) t = (Statements.ticks k t).tick := by
  induction k generalizing t with
  | zero => rfl
  | succ k ih => exact ih t.tick

/-- Up to the period each tick counts one and changes nothing else. -/
theorem ticks_of_le_period {t : Timer} (h0 : t.counter = 0x00#8) {k : Nat}
    (hk : k ≤ t.period.toNat) : Statements.ticks k t = { t with counter := BitVec.ofNat 8 k } := by
  induction k with
  | zero => rw [← h0]; rfl
  | succ k ih =>
    have hne : BitVec.ofNat 8 k ≠ t.period := by bv_omega
    have hsucc : BitVec.ofNat 8 k + 1#8 = BitVec.ofNat 8 (k + 1) := BitVec.ofNat_add_ofNat k 1
    rw [ticks_succ_eq_tick, ih (Nat.le_of_succ_le hk), Timer.tick_of_counter_ne hne, hsucc]

/-- The tick after the period finds the counter at it. -/
theorem ticks_period_succ {t : Timer} (h0 : t.counter = 0x00#8) :
    Statements.ticks (t.period.toNat + 1) t =
      { t with counter := 0x00#8, elapsed := true, pending := t.pending || t.ie } := by
  have hperiod : BitVec.ofNat 8 t.period.toNat = t.period := by simp
  rw [ticks_succ_eq_tick, ticks_of_le_period h0 le_rfl, Timer.tick_of_counter_eq hperiod]

/-! ### The arbiter's branches (R310, R315) -/

theorem State.rxRequest_eq_true {s : State} (hfull : s.sio.rxFull = true) (hie : s.sio.rxIe = true) :
    s.rxRequest = true := by
  rw [State.rxRequest, hfull, hie, Bool.and_self]

theorem State.rxRequest_eq_false {s : State} (h : s.sio.rxFull = false ∨ s.sio.rxIe = false) :
    s.rxRequest = false :=
  Bool.and_eq_false_iff.mpr h

theorem State.txRequest_eq_true {s : State} (hempty : s.sio.txEmpty = true)
    (hie : s.sio.txIe = true) : s.txRequest = true := by
  rw [State.txRequest, hempty, hie, Bool.and_self]

theorem State.txRequest_eq_false {s : State} (h : s.sio.txEmpty = false ∨ s.sio.txIe = false) :
    s.txRequest = false :=
  Bool.and_eq_false_iff.mpr h

theorem State.arbitrate_of_timer {s : State} (hie : s.ie = true) (ht : s.timer.pending = true) :
    s.arbitrate = (s.setTimer { s.timer with pending := false }).dispatch Config.vecTimer := by
  simp [State.arbitrate, hie, ht]

theorem State.arbitrate_of_rx {s : State} (hie : s.ie = true) (ht : s.timer.pending = false)
    (hrx : s.rxRequest = true) : s.arbitrate = s.dispatch Config.vecRx := by
  simp [State.arbitrate, hie, ht, hrx]

theorem State.arbitrate_of_tx {s : State} (hie : s.ie = true) (ht : s.timer.pending = false)
    (hrx : s.rxRequest = false) (htx : s.txRequest = true) :
    s.arbitrate = s.dispatch Config.vecTx := by
  simp [State.arbitrate, hie, ht, hrx, htx]

theorem State.arbitrate_of_console {s : State} (hie : s.ie = true) (ht : s.timer.pending = false)
    (hrx : s.rxRequest = false) (htx : s.txRequest = false) (hcon : s.console.pending = true) :
    s.arbitrate =
      (s.setConsole { s.console with pending := false }).dispatch Config.vecConsole := by
  simp [State.arbitrate, hie, ht, hrx, htx, hcon]

theorem State.arbitrate_of_no_request {s : State} (ht : s.timer.pending = false)
    (hrx : s.rxRequest = false) (htx : s.txRequest = false) (hcon : s.console.pending = false) :
    s.arbitrate = s := by
  simp [State.arbitrate, ht, hrx, htx, hcon]

/-! ### The frame of a dispatch (R320, R321) -/

/-- The flags byte as a number (`10_state.md` R34). -/
theorem State.flagsByte_eq_ofNat (s : State) :
    s.flagsByte = BitVec.ofNat 8
      ((if s.ie then 128 else 0) + (if s.flagC then 4 else 0) + (if s.flagS then 2 else 0) +
        (if s.flagZ then 1 else 0)) := by
  unfold State.flagsByte
  cases s.ie <;> cases s.flagC <;> cases s.flagS <;> cases s.flagZ <;> rfl

/-- The vector cell is read after the two pushes. -/
theorem State.pc_dispatch_eq_readMem (s : State) (vec : Byte) :
    (s.dispatch vec).pc = (s.dispatch vec).readMem vec := by
  rw [State.pc_dispatch, State.readMem, State.readMem, State.mem_dispatch]

/-! ### Latched requests (R311, R314, R324; decisions D11 and D12) -/

/-- A latched request of the timer or of the console is still latched. -/
def State.KeepsRequests (s t : State) : Prop :=
  (s.timer.pending = true → t.timer.pending = true) ∧
    (s.console.pending = true → t.console.pending = true)

/-- The state is one that the timer's dispatch leaves. -/
def State.TimerServed (t : State) : Prop :=
  ∃ u : State, u.ie = true ∧ u.timer.pending = true ∧
    t = State.dispatch { u with timer := { u.timer with pending := false } } 0xDC#8

/-- The state is one that the console's dispatch leaves. -/
def State.ConsoleServed (t : State) : Prop :=
  ∃ u : State, u.ie = true ∧ u.console.pending = true ∧
    t = State.dispatch { u with console := { u.console with pending := false } } 0xDF#8

/-- A latched request is still latched, or was cleared by its own dispatch. -/
def State.KeepsOrServesRequests (s t : State) : Prop :=
  (s.timer.pending = true → t.timer.pending = true ∨ t.TimerServed) ∧
    (s.console.pending = true → t.console.pending = true ∨ t.ConsoleServed)

theorem State.KeepsRequests.of_eq {s t : State} (ht : t.timer.pending = s.timer.pending)
    (hc : t.console.pending = s.console.pending) : s.KeepsRequests t :=
  ⟨ht.trans, hc.trans⟩

theorem State.KeepsRequests.trans_keepsOrServes {s t u : State} (h : s.KeepsRequests t)
    (h' : t.KeepsOrServesRequests u) : s.KeepsOrServesRequests u :=
  ⟨h'.1 ∘ h.1, h'.2 ∘ h.2⟩

theorem State.KeepsRequests.keepsOrServes {s t : State} (h : s.KeepsRequests t) :
    s.KeepsOrServesRequests t :=
  ⟨fun hp => .inl (h.1 hp), fun hp => .inl (h.2 hp)⟩

theorem Timer.pending_tick {t : Timer} (h : t.pending = true) : t.tick.pending = true := by
  unfold Timer.tick
  split
  · simp [h]
  · exact h

theorem Timer.pending_advance (n : Nat) {t : Timer} (h : t.pending = true) :
    (Timer.advance n t).pending = true := by
  unfold Timer.advance
  split
  · exact h
  · split
    · exact Timer.pending_tick h
    · exact h

@[simp] theorem State.pending_portIn (s : State) (p : Byte) :
    (s.portIn p).2.timer.pending = s.timer.pending := by
  obtain h | ⟨-, h⟩ | ⟨-, h⟩ := s.portIn_snd_cases p <;> simp [h]

/-- A write of the timer's ports leaves its request alone (`45_io_ports.md` R221; decision D11). -/
@[simp] theorem State.pending_portOut (s : State) (p v : Byte) :
    (s.portOut p v).timer.pending = s.timer.pending := by
  obtain h | ⟨z, h⟩ | h | h | h | h | h := s.portOut_cases p v <;> simp [h]

/-- No instruction touches a latched request. -/
theorem Effect.keepsRequests {i : Instr} {s t : State} (h : Effect i s t) : s.KeepsRequests t := by
  obtain ⟨-, -, hcon, -⟩ := h.sameHostInputs
  refine .of_eq ?_ hcon
  cases h with
  | alu gr r => simp [State.writeAlu_eq]
  | _ => simp

theorem State.keepsRequests_timerAdvance_accountStates (s : State) (n : Nat) :
    s.KeepsRequests ((s.timerAdvance n).accountStates n) := by
  rw [State.accountStates_eq]
  exact ⟨Timer.pending_advance n, id⟩

/-- The arbiter clears a latched request by its own dispatch only. -/
theorem State.keepsOrServesRequests_arbitrate (s : State) : s.KeepsOrServesRequests s.arbitrate := by
  have hkept : ∀ t : State, t.timer = s.timer → t.console = s.console →
      s.KeepsOrServesRequests t :=
    fun t ht hc => (KeepsRequests.of_eq (by rw [ht]) (by rw [hc])).keepsOrServes
  obtain h | ⟨hie, hp, h⟩ | ⟨-, -, h⟩ | ⟨-, -, h⟩ | ⟨hie, hp, h⟩ := s.arbitrate_cases <;> rw [h]
  · exact hkept s rfl rfl
  · exact ⟨fun _ => .inr ⟨s, hie, hp, rfl⟩, fun hc => .inl (by simpa using hc)⟩
  · exact hkept _ (s.timer_dispatch _) (s.console_dispatch _)
  · exact hkept _ (s.timer_dispatch _) (s.console_dispatch _)
  · exact ⟨fun ht => .inl (by simpa using ht), fun _ => .inr ⟨s, hie, hp, rfl⟩⟩

theorem State.keepsOrServesRequests_finishStep (n : Nat) (s : State) :
    s.KeepsOrServesRequests (s.finishStep n) := by
  have hadvance := s.keepsRequests_timerAdvance_accountStates n
  obtain ⟨-, h⟩ | ⟨-, -, h⟩ | ⟨-, -, h⟩ := s.finishStep_cases n <;> rw [h]
  · exact (KeepsRequests.of_eq rfl rfl).keepsOrServes
  · exact hadvance.keepsOrServes
  · exact hadvance.trans_keepsOrServes (State.keepsOrServesRequests_arbitrate _)

theorem State.keepsOrServesRequests_of_cpuStep {s t : State} (h : s.cpuStep = .next t) :
    s.KeepsOrServesRequests t := by
  obtain ⟨-, rfl⟩ | ⟨i, u, -, hx, rfl⟩ := State.cpuStep_cases h
  · have hkept : s.KeepsRequests s.raiseError := .of_eq rfl rfl
    exact hkept.keepsOrServes
  · have hexec : s.KeepsRequests u := (effect_of_exec hx).keepsRequests
    exact hexec.trans_keepsOrServes (u.keepsOrServesRequests_finishStep _)

/-- Of the host's events only the reset clears a latched request; the write event can raise the
console's. -/
theorem State.keepsRequests_of_applyEvent {s t : State} {e : Event} (he : e ≠ .reset)
    (h : s.applyEvent e = .next t) : s.KeepsRequests t := by
  cases e
  case reset => exact absurd rfl he
  case write =>
    simp only [State.applyEvent] at h
    split at h <;> cases h
    exact ⟨id, fun hp => by simp [Console.raise, hp]⟩
  case setReg r v => cases h; cases r <;> simp [State.KeepsRequests, State.setHostReg]
  case setFlag f v => cases h; cases f <;> exact .of_eq rfl rfl
  all_goals cases h; exact .of_eq rfl rfl

end Sys2Proof.Machine

namespace Sys2Proof.ExceptionProofs

open Sys2Proof.Machine

/-- Settles O39: the two cases of the accumulator, the enable, and the two cases of the tick. -/
theorem timerAdvanceRule : Obligations.TimerAdvanceRule := by
  refine fun n t => ⟨Timer.advance_of_lt, fun hacc hen => ?_, fun hacc hen hcounter => ?_,
    fun hacc hen hcounter => ?_⟩
  · simp [Timer.advance_of_le hacc, hen]
  · simp [Timer.advance_of_le hacc, hen, Timer.tick_of_counter_ne, hcounter]
  · simp [Timer.advance_of_le hacc, hen, Timer.tick_of_counter_eq, hcounter]

/-- Settles O40, by the run of ticks up to the period and the one tick more. -/
theorem periodIsOneMoreTick : Obligations.PeriodIsOneMoreTick := by
  refine fun t h0 => ⟨fun k hk => ?_, ?_⟩
  · rw [ticks_of_le_period h0 hk]
    exact ⟨rfl, rfl, rfl⟩
  · rw [ticks_period_succ h0]
    exact ⟨rfl, rfl, rfl⟩

/-- Settles O41: the arbiter's branches, each with the sources before it silent. -/
theorem arbitrationOrder : Obligations.ArbitrationOrder := by
  intro s
  refine ⟨s.arbitrate_of_ie_false, State.arbitrate_of_timer, fun hie ht hfull hrx => ?_,
    fun hie ht hrx hempty htx => ?_, fun hie ht hrx htx hcon => ?_, fun _ ht hrx htx hcon => ?_⟩
  · exact State.arbitrate_of_rx hie ht (State.rxRequest_eq_true hfull hrx)
  · exact State.arbitrate_of_tx hie ht (State.rxRequest_eq_false hrx)
      (State.txRequest_eq_true hempty htx)
  · exact State.arbitrate_of_console hie ht (State.rxRequest_eq_false hrx)
      (State.txRequest_eq_false htx) hcon
  · exact State.arbitrate_of_no_request ht (State.rxRequest_eq_false hrx)
      (State.txRequest_eq_false htx) hcon

/-- Settles O42: the two cells of the frame, the vector cell, and what the dispatch keeps. -/
theorem dispatchSavesFrame : Obligations.DispatchSavesFrame := by
  intro s vec t f
  have hflags : s.flagsByte = f := s.flagsByte_eq_ofNat
  exact ⟨s.sp_dispatch_eq_sub_two vec, s.readMem_dispatch_sub_one vec,
    hflags ▸ s.readMem_dispatch_sub_two vec, s.sameMem_dispatch vec, s.pc_dispatch_eq_readMem vec,
    s.ie_dispatch vec, s.sameRegs_dispatch vec, s.sameFlags_dispatch vec, s.sameRun_dispatch vec,
    s.sameDevices_dispatch vec, s.sameHost_dispatch vec⟩

/-- Settles O44: the four ways a turn can go; the CPU's alone can end in a dispatch, and the reset alone
of the host's can clear a request. -/
theorem latchedRequestsPersist : Obligations.LatchedRequestsPersist := by
  intro s t h
  obtain ⟨-, ⟨-, hcpu, -⟩ | ⟨w, -, rfl⟩ | ⟨e, rest, hw, hev, he⟩ | ⟨-, -, -, rfl⟩⟩ :=
    State.turn_cases h
  · exact .inr (State.keepsOrServesRequests_of_cpuStep hcpu)
  · obtain ⟨x, g, hq⟩ := s.endQuantum_frame w
    have hkept : s.KeepsRequests (s.endQuantum w) := by rw [hq]; exact .of_eq rfl rfl
    exact .inr hkept.keepsOrServes
  · by_cases hr : e = .reset
    · exact .inl ⟨hw, rest, hr ▸ hev⟩
    · have hkept : (s.withEvents rest).KeepsRequests t := State.keepsRequests_of_applyEvent hr he
      exact .inr hkept.keepsOrServes
  · exact .inr (State.KeepsRequests.of_eq rfl rfl).keepsOrServes

end Sys2Proof.ExceptionProofs

/-! ## Reset and the host (`70_reset_and_hazards.md`)

First which way a turn goes when the host moves, then the head of the wait loop and the service of the
serial line, then the CPU step inside a quantum, then the image load, and the statements of the family. -/

namespace Sys2Proof.Machine

/-! ### Which way a turn goes when the host moves (R420, R432) -/

/-- The host's step is its next event, taken off the list. -/
theorem step_of_hostMoves {s : State} {e : Event} {rest : List Event} (h : s.HostMoves e rest) :
    step s = (s.withEvents rest).applyEvent e := by
  obtain ⟨herr, hw, hev⟩ := h
  simp [step, State.turn, State.withEvents, State.setHarness, herr, hw, hev]

/-- A full quantum, or one that `run` = 0 cut short, is ended by the host. -/
theorem step_of_quantum_over {s : State} {w : Wait} (herr : s.error = false)
    (hw : s.harness.wait = some w) (hover : s.run = false ∨ 32 ≤ w.acc) :
    step s = .next (s.endQuantum w) := by
  have hstop : (s.run && decide (w.acc < Config.serialUnitStates)) = false :=
    Bool.and_eq_false_iff.mpr (hover.imp_right fun hfull => decide_eq_false (Nat.not_lt.mpr hfull))
  simp [step, State.turn, herr, hw, hstop]

/-! ### The events consumed -/

theorem State.sameRegs_withEvents (s : State) (rest : List Event) (l : List Reg) :
    SameRegs l s (s.withEvents rest) := by
  intro r _
  cases r <;> rfl

/-- With its enable set the write event latches the console request (R427; decision D12). -/
theorem Console.raise_of_ie {x : Console} (h : x.ie = true) :
    x.raise = { x with pending := true } := by
  rw [Console.raise, h, Bool.or_true]

theorem Console.raise_of_not_ie {x : Console} (h : x.ie = false) : x.raise = x := by
  have hpending : (x.pending || x.ie) = x.pending := by rw [h, Bool.or_false]
  rw [Console.raise, hpending]

/-! ### The head of the wait loop (R432) -/

theorem State.waitHolds_serial_iff (s : State) :
    s.waitHolds .serial = true ↔ s.sio.rxFull = true ∨ s.harness.rxQueue ≠ [] := by
  simp [State.waitHolds]

theorem State.waitHolds_states_iff (s : State) (n total : Nat) :
    s.waitHolds (.states n total) = true ↔ total < n :=
  decide_eq_true_iff

theorem State.openQuantum_stop (s : State) :
    s.openQuantum .stop = s.setHarness
      { s.harness with wait := if s.run then some { kind := .stop, acc := 0 } else none } := by
  simp [State.openQuantum, State.waitHolds]

/-- A quantum begins exactly when `run` is 1 and the condition holds. -/
theorem State.openQuantum_of_iff {s : State} {k : WaitKind} {p : Prop} [Decidable p]
    (h : s.waitHolds k = true ↔ p) :
    s.openQuantum k = s.setHarness
      { s.harness with
        wait := if s.run = true ∧ p then some { kind := k, acc := 0 } else none } := by
  simp only [State.openQuantum, Bool.and_eq_true, h]

/-! ### The service of the serial line (R431) -/

/-- The transmit half: the transmitter is empty after it, and a byte waiting is given to the printer. -/
theorem State.drainTx_eq (s : State) :
    s.drainTx = (s.setSio { s.sio with txEmpty := true }).setHarness
      { s.harness with
        printer := if s.sio.txEmpty then s.harness.printer
          else s.harness.printer ++ [.byte .serial s.sio.txData] } := by
  obtain ⟨htx, h⟩ | ⟨htx, h⟩ := s.drainTx_cases
  · have hsio : { s.sio with txEmpty := true } = s.sio := by rw [← htx]
    rw [h, htx, if_pos rfl, hsio]
    rfl
  · rw [h, htx, if_neg Bool.false_ne_true]
    rfl

theorem State.deliverRx_of_queue {s : State} {b : Byte} {q : List Byte}
    (hfull : s.sio.rxFull = false) (hq : s.harness.rxQueue = b :: q) :
    s.deliverRx = (s.setSio { s.sio with rxData := b, rxFull := true }).setHarness
      { s.harness with rxQueue := q } := by
  simp [State.deliverRx, hfull, hq]

theorem State.deliverRx_of_idle {s : State} (h : s.sio.rxFull = true ∨ s.harness.rxQueue = []) :
    s.deliverRx = s := by
  obtain ⟨-, hs⟩ | ⟨b, q, hfull, hq, -⟩ := s.deliverRx_cases
  · exact hs
  · simp [hfull, hq] at h

/-- The service with a byte to deliver: the printer's half, and the byte in the receiver. -/
theorem State.service_of_queue {s : State} {b : Byte} {q : List Byte}
    (hfull : s.sio.rxFull = false) (hq : s.harness.rxQueue = b :: q) :
    s.service =
      (s.drainTx.setSio { s.drainTx.sio with rxData := b, rxFull := true }).setHarness
        { s.drainTx.harness with rxQueue := q } := by
  apply State.deliverRx_of_queue
  · rw [State.drainTx_eq]; exact hfull
  · rw [State.drainTx_eq]; exact hq

/-- The service with nothing to deliver is the transmit half. -/
theorem State.service_of_idle {s : State} (h : s.sio.rxFull = true ∨ s.harness.rxQueue = []) :
    s.service = s.drainTx := by
  apply State.deliverRx_of_idle
  rw [State.drainTx_eq]
  exact h

@[simp] theorem State.run_service (s : State) : s.service.run = s.run := by
  obtain ⟨x, g, h⟩ := s.service_frame
  rw [h]; rfl

/-! ### The CPU step inside a quantum (R430) -/

/-- Without an error the end of a CPU step adds its states to the quantum in progress, and changes
nothing else of the host's state. -/
theorem State.harness_finishStep {s : State} (n : Nat) (h : s.error = false) :
    (s.finishStep n).harness =
      { s.harness with wait := s.harness.wait.map fun w => { w with acc := w.acc + n } } := by
  obtain ⟨herr, -⟩ | ⟨-, -, hs⟩ | ⟨-, -, hs⟩ := s.finishStep_cases n
  · exact absurd (h.symm.trans herr) nofun
  all_goals simp [hs, State.accountStates_eq]

/-! ### The image load (R405; decisions D19 and D27) -/

theorem byte_add_ofNat_succ (a : Byte) (k : Nat) :
    a + BitVec.ofNat 8 (k + 1) = a + 1#8 + BitVec.ofNat 8 k := by
  bv_omega

/-- Within 256 bytes no later address of an image comes round to its first. -/
theorem byte_ne_add_one_add_ofNat (a : Byte) {k : Nat} (hk : k < 255) :
    a ≠ a + 1#8 + BitVec.ofNat 8 k := by
  bv_omega

/-- An address of ROM, or outside the image, reads as before. -/
theorem State.readMem_loadBytes_of_outside {s : State} {a x : Byte} {bs : List Byte}
    (h : 0xE0 ≤ x.toNat ∨ ∀ k, k < bs.length → x ≠ a + BitVec.ofNat 8 k) :
    (s.loadBytes a bs).readMem x = s.readMem x := by
  induction bs generalizing s a with
  | nil => rfl
  | cons b bs ih =>
    have htail : 0xE0 ≤ x.toNat ∨ ∀ k, k < bs.length → x ≠ a + 1#8 + BitVec.ofNat 8 k :=
      h.imp_right fun hne k hk => byte_add_ofNat_succ a k ▸ hne (k + 1) (Nat.succ_lt_succ hk)
    have hhead : (s.writeMem a b).readMem x = s.readMem x := by
      rw [State.readMem_writeMem, if_neg]
      rintro ⟨rfl, hram⟩
      obtain hrom | hne := h
      · exact absurd ((lt_romStart_iff x).mp hram) (Nat.not_lt.mpr hrom)
      · exact hne 0 (Nat.zero_lt_succ _) (BitVec.add_zero x).symm
    exact (ih htail).trans hhead

/-- Of at most 256 bytes each that falls below ROM reads back: the bytes after it go elsewhere. -/
theorem State.readMem_loadBytes_of_getElem? {s : State} {a b : Byte} {bs : List Byte} {k : Nat}
    (hlen : bs.length ≤ 256) (hb : bs[k]? = some b) (hram : (a + BitVec.ofNat 8 k).toNat < 0xE0) :
    (s.loadBytes a bs).readMem (a + BitVec.ofNat 8 k) = b := by
  induction bs generalizing s a k with
  | nil => cases hb
  | cons c bs ih =>
    rw [List.length_cons] at hlen
    cases k with
    | zero =>
      obtain rfl : c = b := Option.some.inj hb
      have hfirst : a + BitVec.ofNat 8 0 = a := BitVec.add_zero a
      have hkept : ((s.writeMem a c).loadBytes (a + 1#8) bs).readMem a = (s.writeMem a c).readMem a :=
        State.readMem_loadBytes_of_outside
          (.inr fun j hj => byte_ne_add_one_add_ofNat a (by omega))
      rw [hfirst] at hram ⊢
      rw [State.loadBytes, hkept, State.readMem_writeMem_self, if_pos hram]
    | succ k =>
      rw [byte_add_ofNat_succ] at hram ⊢
      exact ih (Nat.le_of_succ_le hlen) hb hram

theorem State.loadImage_of_le (s : State) {start size : Byte} {body : List Byte}
    (h : size.toNat ≤ body.length) :
    s.loadImage (start :: size :: body) = some (s.loadBytes start (body.take size.toNat)) :=
  if_pos h

theorem State.loadImage_of_lt (s : State) {start size : Byte} {body : List Byte}
    (h : body.length < size.toNat) : s.loadImage (start :: size :: body) = none :=
  if_neg (Nat.not_le.mpr h)

end Sys2Proof.Machine

namespace Sys2Proof.ResetProofs

open Sys2Proof.Machine

/-- Settles O45: each event is one write, of a register, of `PC` or of a flag. -/
theorem hostSetsRegistersAndFlags : Obligations.HostSetsRegistersAndFlags := by
  intro s rest v b
  refine ⟨fun g h => ?_, step_of_hostMoves, step_of_hostMoves, step_of_hostMoves, step_of_hostMoves⟩
  have hvalue : ((s.withEvents rest).setReg g (BitVec.ofInt 8 v)).reg g = BitVec.ofInt 8 v := by
    rw [State.reg_setReg, if_pos rfl]
  have hflags : SameFlags s (s.withEvents rest) := SameFlags.refl s
  have hmem : SameMem [] s (s.withEvents rest) := SameMem.refl [] s
  exact ⟨(s.withEvents rest).setReg g (BitVec.ofInt 8 v), step_of_hostMoves h, hvalue,
    (s.sameRegs_withEvents rest [g]).setReg (List.mem_singleton_self g) _,
    hflags.setReg g _, hmem.setReg g _, State.pc_setReg _ g _, (SameRest.refl _).setReg g _⟩

/-- Settles O46: the event is one memory write through the ROM gate. -/
theorem hostStoresThroughGate : Obligations.HostStoresThroughGate := by
  intro s rest a v h
  exact ⟨(s.withEvents rest).writeMem (BitVec.ofInt 8 a) (BitVec.ofInt 8 v), step_of_hostMoves h, rfl,
    (s.withEvents rest).readMem_writeMem_self _ _, (s.withEvents rest).sameMem_writeMem _ _⟩

/-- Settles O47: each event is one write of the inputs. -/
theorem hostSetsInputs : Obligations.HostSetsInputs :=
  fun _ _ _ _ => ⟨step_of_hostMoves, step_of_hostMoves, step_of_hostMoves, step_of_hostMoves,
    step_of_hostMoves, step_of_hostMoves⟩

/-- Settles O48: the split is on `run`, and with it set on the console's enable. -/
theorem consoleRequestNeedsItsEnable : Obligations.ConsoleRequestNeedsItsEnable := by
  intro s rest h
  have hwrite : step s = if s.run
      then .next ((s.withEvents rest).setConsole s.console.raise) else .refused .writeWhileStopped :=
    step_of_hostMoves h
  refine ⟨fun hrun hie => ?_, fun hrun hie => ?_, fun hrun => ?_⟩
  · rw [hwrite, if_pos hrun, Console.raise_of_ie hie]
    rfl
  · rw [hwrite, if_pos hrun, Console.raise_of_not_ie hie]
    rfl
  · rw [hwrite, hrun, if_neg Bool.false_ne_true]

/-- Settles O49: each event is one write of `run`. -/
theorem runAndStopSetTheFlag : Obligations.RunAndStopSetTheFlag :=
  fun _ _ => ⟨step_of_hostMoves, step_of_hostMoves⟩

/-- Settles O50: the state of `State.resetEvent`, field by field. -/
theorem resetEventKeepsMemory : Obligations.ResetEventKeepsMemory :=
  fun s rest h => ⟨(s.withEvents rest).resetEvent, step_of_hostMoves h, rfl, rfl, rfl, rfl, rfl, rfl,
    rfl, rfl, rfl, rfl, rfl, rfl, rfl, rfl, rfl, fun _ _ => rfl, rfl⟩

/-- Settles O51: each event is one write of the host's own state; for the print event the split is over
what it samples. -/
theorem serialAndPrintTouchHostOnly : Obligations.SerialAndPrintTouchHostOnly := by
  refine fun s rest => ⟨fun vs => step_of_hostMoves, fun w h => ?_, fun c m => step_of_hostMoves,
    step_of_hostMoves⟩
  rw [step_of_hostMoves h]
  cases w with
  | mem a => rfl
  | reg r => cases r with
    | gen r => cases r <;> rfl
    | pc => rfl
  | flag f => cases f <;> rfl
  | buzzer | speaker | run | parallel => rfl
  | extParallel => rw [BitVec.ofNat_toNat]; rfl

/-- Settles O52: each event is the head of the wait loop, with its condition. -/
theorem waitEventsOpenAQuantum : Obligations.WaitEventsOpenAQuantum := by
  intro s rest n
  refine ⟨fun h => ?_, fun h => ?_, fun e m he h => ?_⟩
  · exact (step_of_hostMoves h).trans
      (congrArg Host.Outcome.next (s.withEvents rest).openQuantum_stop)
  · exact (step_of_hostMoves h).trans
      (congrArg Host.Outcome.next (State.openQuantum_of_iff (s.withEvents rest).waitHolds_serial_iff))
  · have happly : (s.withEvents rest).applyEvent e =
        .next ((s.withEvents rest).openQuantum (.states m 0)) := by
      obtain ⟨rfl, rfl⟩ | ⟨rfl, rfl⟩ | ⟨rfl, rfl⟩ := he <;> rfl
    exact ((step_of_hostMoves h).trans happly).trans (congrArg Host.Outcome.next
      (State.openQuantum_of_iff ((s.withEvents rest).waitHolds_states_iff m 0)))

/-- Settles O53: the split is on whether the service has a byte to deliver. -/
theorem serviceMovesOneByteEachWay : Obligations.ServiceMovesOneByteEachWay := by
  intro s t
  obtain ⟨hidle, -⟩ | ⟨b, q, hfull, hq, -⟩ := s.deliverRx_cases
  · have ht : t = s.drainTx := State.service_of_idle hidle
    rw [ht, State.drainTx_eq]
    refine ⟨rfl, rfl, rfl, rfl, rfl, fun b q hfull hq => ?_, fun _ => ⟨rfl, rfl, rfl⟩, rfl, rfl, rfl⟩
    simp [hfull, hq] at hidle
  · have ht : t = _ := State.service_of_queue hfull hq
    rw [ht, State.drainTx_eq]
    refine ⟨rfl, rfl, rfl, rfl, rfl, fun b' q' _ hq' => ?_, fun hidle => ?_, rfl, rfl, rfl⟩
    · obtain ⟨rfl, rfl⟩ := List.cons.inj (hq.symm.trans hq')
      exact ⟨rfl, rfl, rfl⟩
    · simp [hfull, hq] at hidle

/-- Settles O54: the instruction leaves the host's state, and the end of the step counts its states. -/
theorem quantumCountsStates : Obligations.QuantumCountsStates := by
  intro s t w i rest hmoves hw hdec hexec herr
  have hstep : step s = .next (t.finishStep (statesOf i)) :=
    (State.turn_of_cpuMoves hmoves).trans
      (State.cpuStep_of_exec (State.fetch_of_decode hdec) hexec)
  have hhost : t.harness = s.harness := (effect_of_exec hexec).harness_eq
  refine ⟨_, hstep, ?_⟩
  rw [State.harness_finishStep _ herr, hhost, hw]
  rfl

/-- Settles O55: the end of a quantum is the service and the head of the wait loop; the split is over the
kinds of wait. -/
theorem quantumEndsWithService : Obligations.QuantumEndsWithService := by
  intro s w herr hw hover
  refine ⟨s.endQuantum w, step_of_quantum_over herr hw hover, rfl, fun hk => ?_, fun hk => ?_,
    fun n total hk => ?_⟩
  all_goals rw [State.endQuantum, hk, WaitKind.account]
  · rw [State.openQuantum_stop, State.harness_setHarness, State.run_service]
  · rw [State.openQuantum_of_iff s.service.waitHolds_serial_iff, State.harness_setHarness,
      State.run_service]
  · rw [State.openQuantum_of_iff (s.service.waitHolds_states_iff _ _), State.harness_setHarness,
      State.run_service]

/-- Settles O56: the bytes by induction along the image; the file is its first `size` bytes, fewer than
256. -/
theorem loadedImageReadsBack : Obligations.LoadedImageReadsBack := by
  refine ⟨fun s a bs hlen => ⟨fun k b => State.readMem_loadBytes_of_getElem? hlen,
      fun x => State.readMem_loadBytes_of_outside⟩, fun s start size body hsize => ?_,
    fun s start size body => s.loadImage_of_lt, fun s b => ⟨rfl, rfl⟩,
    fun image script => ⟨fun h => ?_, fun t h => ?_⟩⟩
  · have hlen : (body.take size.toNat).length = size.toNat := List.length_take_of_le hsize
    have hle : (body.take size.toNat).length ≤ 256 := hlen.trans_le size.isLt.le
    refine ⟨_, s.loadImage_of_le hsize, s.loadBytes_eq start _, fun k b hk hb hram => ?_,
      fun x hx => ?_⟩
    · have htake : (body.take size.toNat)[k]? = some b := (List.getElem?_take_of_lt hk).trans hb
      exact State.readMem_loadBytes_of_getElem? hle htake hram
    · rw [← hlen] at hx
      exact State.readMem_loadBytes_of_outside hx
  · rw [boot, h]
  · rw [boot, h]
    rfl

end Sys2Proof.ResetProofs
